-- ==== Sys2Proof/Word.lean ====
section
/-! DEFINITION. The words of the LS-3216: the 32-bit lockbus and port word, and the small unsigned
integers the spec counts from zero (station IDs, lock numbers, lock indices, slots, notify lines). -/

namespace Sys2Proof

/-- LDAT0–LDAT31 (R26) and PD0–PD31 (11.1). -/
abbrev Word := BitVec 32

/-- A station ID, 0 to 15. -/
abbrev StationId := Fin 16

/-- A client slot, 0 to 31. -/
abbrev SlotId := Fin 32

/-- A lock number, 0 to 4095 (R1). -/
abbrev LockId := Fin 4096

/-- A lock index at its home, 0 to 255 (R1). -/
abbrev LockIndex := Fin 256

/-- A notify line, NTF0 to NTF3. -/
abbrev LineId := Fin 4

/-- The bits `lo … lo + n - 1` of a word. -/
abbrev bits (w : Word) (lo n : Nat) : BitVec n := w.extractLsb' lo n

/-- One bit as a word of width 1. -/
abbrev bit (b : Bool) : BitVec 1 := BitVec.ofBool b

end Sys2Proof
end

