-- ==== Sys2Proof/Syntax.lean ====
section
/-! DEFINITION. The commands of the LS-3216: one constructor of `Instr` for each row of
spec/opcode_table.json, with the operands the rows' rules give. -/

namespace Sys2Proof

/-- What the OTHER stations drive on the shared wired-OR lines in one phase (R26). This station's own
drive is ORed in by the model; a phase reads only the lines R26 gives it. -/
structure Lines where
  larb : BitVec 16
  ldat : Word
  lpar : BitVec 2
  lrsp : Bool
  lvoid : Bool
  lstall : Bool
  deriving DecidableEq, Repr

/-- The five configuration registers (R173). -/
inductive ConfigRegister where
  /-- Routes register k, slots 8k to 8k + 7. -/
  | routes (k : Fin 4)
  /-- The station configuration register. -/
  | station
  deriving DecidableEq, Repr

/-- The commands, one constructor per row of spec/opcode_table.json. -/
inductive Instr where
  /-- POWER_ON_RESET (R152): assertion of POR_N; the operands are the strap pins sampled while it is
  asserted (R179). -/
  | powerOnReset (id : StationId) (bpsel : Fin 4)
  /-- POR_N_RELEASE (R179): release of POR_N with the strap pins present at that moment. -/
  | porNRelease (id : StationId) (bpsel : Fin 4)
  /-- STATION_RESET (R151): assertion of SRST_N. -/
  | stationReset
  /-- SRST_N_RELEASE (R180). -/
  | srstNRelease
  /-- CRST_N (R154): a falling edge of CRST_N. -/
  | crstN
  /-- JOIN station command (R132). -/
  | join
  /-- LEAVE station command (R147). -/
  | leave
  /-- FLUSH station command (R154). -/
  | flush
  /-- RESET station command (R171). -/
  | reset
  /-- A station command write with an undefined code, 0 or 5 to 7 (R171). -/
  | stationCommandInvalid (code : BitVec 3)
  /-- ACQUIRE slot command (R76), with the mode, try and lock fields of the word written (R168). -/
  | acquire (slot : SlotId) (mode : BitVec 2) (tryFlag : Bool) (lock : BitVec 13)
  /-- RELEASE slot command (R77). -/
  | release (slot : SlotId) (lock : BitVec 13)
  /-- DOWNGRADE slot command (R78). -/
  | downgrade (slot : SlotId) (lock : BitVec 13)
  /-- CANCEL slot command (R79). -/
  | cancel (slot : SlotId)
  /-- A slot command write with an undefined code, 0 or 5 to 7 (R75, R168). -/
  | slotCommandInvalid (slot : SlotId) (code : BitVec 3)
  /-- A 32-bit write to a slot parameter register (R168). -/
  | slotParameterWrite (slot : SlotId) (value : Word)
  /-- A read of the queue head register (R105), with the byte enables of the access (R167). -/
  | queueHeadRead (enables : BitVec 4)
  /-- A 32-bit write to a configuration register (R173). -/
  | configurationWrite (reg : ConfigRegister) (value : Word)
  /-- A write the port ignores (R167): the word address PA2–PA11, the byte enables and the data. -/
  | portWriteIgnored (addr : BitVec 10) (enables : BitVec 4) (value : Word)
  /-- ARBITRATION (R29): the LARB lines the other stations assert in the priority round, and in the
  normal round if one is held. -/
  | arbitration (priorityLines normalLines : BitVec 16)
  /-- REQUEST_PHASE (R32): what the other stations drive during each request word. -/
  | requestPhase (first second : Lines)
  /-- OBSERVATION_PHASE (R33): its start. -/
  | observationPhase (others : Lines)
  /-- OBSERVATION_CLOSE (R36): the fixed length has passed. -/
  | observationClose (others : Lines)
  /-- RESPONSE_PHASE (R37). -/
  | responsePhase (others : Lines)
  /-- COMPLETION (R38). `eventFirst` says which of two deliveries the spec leaves unordered (R39, R98)
  is taken first: the raise of a station event, or the RQT's own delivery. -/
  | completion (others : Lines) (eventFirst : Bool)
  /-- LOCK_TRANSACTION_CLAIM (R51). -/
  | lockTransactionClaim
  /-- SELF_HOMED_REQUEST (R52). -/
  | selfHomedRequest
  /-- SELF_HOMED_RESPONSE (R80): the RQT takes the oldest response handed for the slot. -/
  | selfHomedResponse (slot : SlotId)
  /-- GRANT_OUTCOME (R64). -/
  | grantOutcome
  /-- INTERNAL_GRANT_OUTCOME (R70). -/
  | internalGrantOutcome
  /-- PURGE_CAUSE (R19). -/
  | purgeCause
  /-- PURGE_END (R21). -/
  | purgeEnd
  /-- WAIT_TIMER_EXPIRY (R89). -/
  | waitTimerExpiry (slot : SlotId)
  /-- BACKOFF_TIMER_EXPIRY (R84). -/
  | backoffTimerExpiry (slot : SlotId)
  /-- BEACON_TIMER_EXPIRY (R116). -/
  | beaconTimerExpiry
  /-- SILENCE_TIMER_EXPIRY (R120); `eventFirst` as for COMPLETION. -/
  | silenceTimerExpiry (peer : StationId) (eventFirst : Bool)
  /-- LISTEN_WINDOW_EXPIRY (R133). -/
  | listenWindowExpiry
  /-- REBUILD_TIMER_EXPIRY (R139). -/
  | rebuildTimerExpiry
  /-- NOTIFY_PULSE (R108): the line ends one pulse and its gap. -/
  | notifyPulse (line : LineId)
  deriving DecidableEq, Repr

end Sys2Proof
end

