-- ==== Sys2Proof/Decode.lean ====
section
/-! DEFINITION. The commands that a word spells. No row of spec/opcode_table.json gives bits, so
`decodeTableWord` answers none. The port window's own decoding, which the spec does give (R167, R168,
R171, R173), follows: which command a write at a word address is. -/

namespace Sys2Proof

/-- No row of the table gives bits (98_reader.md: n_rows_with_fields 0). -/
def decodeTableWord (_nbits _w : Nat) : Option Instr := none

/-- The registers of the port window (R167). -/
inductive Register where
  | slotCommand (s : SlotId)
  | slotParameter (s : SlotId)
  | slotStatusA (s : SlotId)
  | slotStatusB (s : SlotId)
  | queueHead
  | stationCommand
  | stationStatus (k : Fin 6)
  | config (r : ConfigRegister)
  | holdView (k : Fin 128)
  | homeSummary (k : Fin 4)
  | stalledView (k : Fin 48)
  | membershipView (s : StationId)
  /-- An offset outside the table. -/
  | unmapped
  deriving DecidableEq, Repr

/-- The register at a word address PA2–PA11; the offset is four times the address (R167). -/
def registerAt (addr : BitVec 10) : Register :=
  let a := addr.toNat
  if h : a < 128 then
    let s : SlotId := ⟨a / 4, by omega⟩
    match a % 4 with
    | 0 => .slotCommand s
    | 1 => .slotParameter s
    | 2 => .slotStatusA s
    | _ => .slotStatusB s
  else if a = 128 then .queueHead
  else if a = 129 then .stationCommand
  else if h : 130 ≤ a ∧ a < 136 then .stationStatus ⟨a - 130, by omega⟩
  else if h : 144 ≤ a ∧ a < 148 then .config (.routes ⟨a - 144, by omega⟩)
  else if a = 148 then .config .station
  else if h : 192 ≤ a ∧ a < 320 then .holdView ⟨a - 192, by omega⟩
  else if h : 320 ≤ a ∧ a < 324 then .homeSummary ⟨a - 320, by omega⟩
  else if h : 336 ≤ a ∧ a < 384 then .stalledView ⟨a - 336, by omega⟩
  else if h : 384 ≤ a ∧ a < 400 then .membershipView ⟨a - 384, by omega⟩
  else .unmapped

/-- The slot command a word spells (R168). -/
def slotCommandOf (s : SlotId) (w : Word) : Instr :=
  match (bits w 0 3).toNat with
  | 1 => .acquire s (bits w 4 2) (w.getLsbD 6) (bits w 16 13)
  | 2 => .release s (bits w 16 13)
  | 3 => .downgrade s (bits w 16 13)
  | 4 => .cancel s
  | _ => .slotCommandInvalid s (bits w 0 3)

/-- The station command a word spells (R171). -/
def stationCommandOf (w : Word) : Instr :=
  match (bits w 0 3).toNat with
  | 1 => .join
  | 2 => .leave
  | 3 => .flush
  | 4 => .reset
  | _ => .stationCommandInvalid (bits w 0 3)

/-- The registers a 32-bit write is taken by (R167). -/
def Register.writable : Register → Bool
  | .slotCommand _ | .slotParameter _ | .stationCommand | .config _ => true
  | .slotStatusA _ | .slotStatusB _ | .queueHead | .stationStatus _ | .holdView _ | .homeSummary _
  | .stalledView _ | .membershipView _ | .unmapped => false

/-- The command a port write is (R167): a write narrower than 32 bits, to a read-only register or outside
the table is ignored. -/
def portWrite (addr : BitVec 10) (enables : BitVec 4) (w : Word) : Instr :=
  if enables ≠ 15 then .portWriteIgnored addr enables w
  else
    match registerAt addr with
    | .slotCommand s => slotCommandOf s w
    | .slotParameter s => .slotParameterWrite s w
    | .stationCommand => stationCommandOf w
    | .config r => .configurationWrite r w
    | .slotStatusA _ | .slotStatusB _ | .queueHead | .stationStatus _ | .holdView _ | .homeSummary _
    | .stalledView _ | .membershipView _ | .unmapped => .portWriteIgnored addr enables w

end Sys2Proof
end

