-- ==== Sys2Proof/Config.lean ====
section
/-! DEFINITION. What the part fixes: its capacities, its timer constants and its configuration
defaults. No value of this part is left free by the spec in a way that would need an opaque constant:
every open choice is an operand of a command or an entry of the assumption log. -/

namespace Sys2Proof.Config

/-- Holder table entries (R5). -/
abbrev holderCapacity : Nat := 512
/-- Waiter pool entries (R7). -/
abbrev waiterCapacity : Nat := 192
/-- Local hold table entries (R73). -/
abbrev holdCapacity : Nat := 128
/-- Completion queue entries (R98). -/
abbrev queueCapacity : Nat := 72
/-- Normal transmit list entries (R45). -/
abbrev normalCapacity : Nat := 40
/-- Priority transmit list entries (R46). -/
abbrev priorityCapacity : Nat := 32
/-- GRANTs posted by one home at once (R14). -/
abbrev postedLimit : Nat := 8
/-- REASSERTs outstanding from one station (R141). -/
abbrev outstandingLimit : Nat := 4
/-- The ceiling of a line's count of pulses owed (R108). -/
abbrev pulseCeiling : Nat := 255

/-- The beacon period P in microseconds, by the BPSEL code (R179). -/
def beaconPeriod (bpsel : Fin 4) : Nat :=
  match bpsel with
  | 0 => 2000
  | 1 => 5000
  | 2 => 10000
  | 3 => 20000

/-- The listen window is 2P (R133). -/
abbrev listenPeriods : Nat := 2
/-- The rebuild timeout is 4P (R139). -/
abbrev rebuildPeriods : Nat := 4

/-- Default backoff base in units of 16 µs: 64 µs (R173). -/
abbrev defaultBackoffBase : BitVec 6 := 4
/-- Default attempt limit (R173). -/
abbrev defaultAttemptLimit : BitVec 4 := 8
/-- Default loss threshold (R173). -/
abbrev defaultLossThreshold : BitVec 3 := 3

end Sys2Proof.Config
end

