-- ==== Sys2Proof/Machine/State.lean ====
section
/-! DEFINITION. The state of one LS-3216 station as plain data, block by block, with its reset value.
`Hw` is the hardware; `State` adds the model's queue of commands that wait. -/

namespace Sys2Proof.Machine

/-! ### Names the blocks share -/

/-- Station state (07, section 7.1). -/
inductive StationState where
  | offline | listening | joining | rebuilding | online | leaving | duplicate
  deriving DecidableEq, Repr

/-- Home state (R3). -/
inductive HomeState where
  | inactive | rebuilding | serving
  deriving DecidableEq, Repr

/-- Mode of a hold or a request (R2). -/
inductive Mode where
  | shared | exclusive
  deriving DecidableEq, Repr

/-- Transaction kinds (R43). -/
inductive Kind where
  | acquire | release | downgrade | cancel | grant | reassert | beacon | join | leave | purge | evict
  deriving DecidableEq, Repr

/-- Detail of a REFUSED response (R44). -/
inductive RefusedDetail where
  | waitFull | holdFull | rebuilding
  deriving DecidableEq, Repr

/-- Response code with its detail (R44). -/
inductive Response where
  | granted | queued | busy | refused (detail : RefusedDetail) | done | stale | notWaiting
  | accept | decline | conflict
  deriving DecidableEq, Repr

/-- Outcome of a completion (R38). -/
inductive BusOutcome where
  /-- LVOID was seen or an error detected. -/
  | void
  /-- A kind with a response phase that no station answered. -/
  | absent
  /-- The response read. -/
  | answered (r : Response)
  /-- A broadcast, complete. -/
  | complete
  deriving DecidableEq, Repr

/-! ### Station Control Unit -/

/-- Outcome of the last station command (R131). -/
inductive CommandStatus where
  | none | taken | wrongState
  deriving DecidableEq, Repr

/-- Configuration write status (R173). -/
inductive ConfigStatus where
  | none | taken | frozen | range
  deriving DecidableEq, Repr

/-- Route of a completion entry (R106). -/
inductive Route where
  | line (n : LineId)
  | none
  deriving DecidableEq, Repr

/-- Mode of a notify line (R106). -/
inductive LineMode where
  | level | pulse
  deriving DecidableEq, Repr

/-- The SCU (R130, R153) with the configuration fields (R173) and the sampled straps (R179). Timers hold
the microseconds left while they run. -/
structure Scu where
  station : StationState
  flushing : Bool
  frozen : Bool
  listenTimer : Option Nat
  commandStatus : CommandStatus
  configStatus : ConfigStatus
  id : StationId
  bpsel : Fin 4
  routes : Vector Route 32
  stationRoute : Route
  lineModes : Vector LineMode 4
  backoffBase : BitVec 6
  attemptLimit : BitVec 4
  lossThreshold : BitVec 3
  deriving DecidableEq, Repr

/-! ### Lockbus Controller -/

/-- An entry of a transmit list: one transaction ready to go, its kind and the fields of its request
words but for the source, which is always this station (R43). A field the kind does not use is zero. -/
structure Transaction where
  kind : Kind
  slot : SlotId := 0
  mode : Mode := .shared
  tryFlag : Bool := false
  endFlag : Bool := false
  lock : LockId := 0
  target : StationId := 0
  targetSlot : SlotId := 0
  deriving DecidableEq, Repr

/-- The round an arbitration was won in (R31). -/
inductive Round where
  | priority | normal
  deriving DecidableEq, Repr

/-- This station's role in the open transaction (R31). -/
inductive Role where
  | initiator | responder | observer
  deriving DecidableEq, Repr

/-- The phase the open transaction has reached: the next event due on the lockbus (02, section 2.2). -/
inductive BusPhase where
  /-- Arbitration is over, the request words are due. -/
  | request
  /-- The request words are read, the observation phase is due. -/
  | observation
  /-- The observation phase is open. -/
  | observing
  /-- LRSP was read at the close, the response word is due. -/
  | response
  /-- Completion is due. -/
  | completion
  deriving DecidableEq, Repr

/-- Transaction record (R31), with the phase reached and this station's LRSP, LSTALL and error
(R33 to R35). -/
structure TxRecord where
  winner : StationId
  round : Round
  role : Role
  entry : Option Transaction
  words : Option (Word × Word)
  presence : Option (BitVec 16)
  responded : Option Bool
  response : Option Response
  voidSeen : Bool
  phase : BusPhase
  /-- This station has detected a parity or framing error in the transaction (R35). -/
  error : Bool
  /-- This station asserts LRSP. -/
  lrsp : Bool
  /-- This station asserts LSTALL. -/
  lstall : Bool
  /-- Another station's LSTALL was last read asserted. -/
  stallSeen : Bool
  deriving DecidableEq, Repr

/-- The LBC (R50). -/
structure Lbc where
  pointer : StationId
  normal : List Transaction
  priority : List Transaction
  record : Option TxRecord
  deriving DecidableEq, Repr

/-! ### Home Table Unit -/

/-- State of a holder entry (R5). -/
inductive HolderState where
  | held | offered
  deriving DecidableEq, Repr

/-- Holder entry (R5). `posted` is present for OFFERED entries of other stations only. -/
structure Holder where
  index : LockIndex
  station : StationId
  slot : SlotId
  mode : Mode
  state : HolderState
  posted : Option Bool
  deriving DecidableEq, Repr

/-- Waiter entry (R7); also the key of an offer in the backlog (R14). -/
structure Waiter where
  index : LockIndex
  station : StationId
  slot : SlotId
  mode : Mode
  deriving DecidableEq, Repr

/-- A request as the home decides it: a lock transaction as read from the words (R51) or a self-homed
request, whose source is this station (R52). -/
structure Request where
  kind : Kind
  station : StationId
  slot : SlotId
  index : LockIndex
  mode : Mode
  tryFlag : Bool
  endFlag : Bool
  deriving DecidableEq, Repr

/-- The changes of a decision (R51): entries removed, added or altered. -/
structure Changes where
  dropWaiters : List Waiter := []
  dropHolders : List Holder := []
  addHolder : Option Holder := none
  addWaiter : Option Waiter := none
  /-- A HELD EXCLUSIVE entry whose mode becomes SHARED (R61). -/
  share : Option Holder := none
  /-- A station that leaves the awaited set (R138). -/
  unawait : Option StationId := none
  deriving DecidableEq, Repr

/-- Decision record (R51). -/
structure Decision where
  request : Request
  response : Response
  changes : Changes
  deriving DecidableEq, Repr

/-- Claims that wait at the home (R53). -/
inductive Claim where
  /-- The lock transaction on the lockbus, whose fields stand in the transaction record. -/
  | lockTransaction
  | selfRequest (r : Request)
  /-- Outcome of a lockbus GRANT (R64). -/
  | grantOutcome (target : StationId) (slot : SlotId) (lock : LockId) (mode : Mode) (outcome : BusOutcome)
  /-- The RQT's answer to an internal offer (R70). -/
  | internalOutcome (slot : SlotId) (lock : LockId) (mode : Mode) (accepted : Bool)
  /-- A purge cause and whether an EVICT follows (R18). -/
  | purgeCause (station : StationId) (evict : Bool)
  | rebuildExpiry
  deriving DecidableEq, Repr

/-- The purge in progress (R19), with the stations a rebuild expiry still has to purge after it (R139). -/
structure Purge where
  station : StationId
  evict : Bool
  removed : Nat
  touched : List LockIndex
  rebuild : Bool
  rest : List StationId
  deriving DecidableEq, Repr

/-- What engages the home (R23). -/
inductive Engagement where
  | free | transaction | grant | purge
  deriving DecidableEq, Repr

/-- The HTU (R25). The home state follows the station state (R3) and is computed. `claims` is the pending-claim list
(R53); `arriving` holds the claims that have reached a free home, each until its own command takes it (the
model's own field, log 5). -/
structure Htu where
  holders : List Holder
  waiters : List Waiter
  backlog : List Waiter
  posted : Nat
  stalled : List LockIndex
  purge : Option Purge
  engaged : Engagement
  claims : List Claim
  arriving : List Claim
  decision : Option Decision
  awaited : BitVec 16
  rebuildTimer : Option Nat
  deriving DecidableEq, Repr

/-! ### Request Tracker -/

/-- Slot state (R72). -/
inductive SlotState where
  | idle | queuedOut | onBus | waiting | backoff | cancelling | done
  deriving DecidableEq, Repr

/-- Operation of a slot (R71). -/
inductive Op where
  | acquire | release | downgrade
  deriving DecidableEq, Repr

/-- Cause of a cancel (R71). -/
inductive CancelCause where
  | client | timeout
  deriving DecidableEq, Repr

/-- Refusal code (R71, R75). -/
inductive RefusalCode where
  | none | slotBusy | stationNotReady | badCommand | nothingToCancel
  deriving DecidableEq, Repr

/-- The operation fields of a slot out of IDLE (R71); mode, try flag and wait limit are an ACQUIRE's. -/
structure Operation where
  op : Op
  lock : LockId
  mode : Option Mode
  tryFlag : Bool
  waitLimit : BitVec 16
  deriving DecidableEq, Repr

/-- Slot record (R71) with the marks of a flush (R156). Timers hold the microseconds left. -/
structure SlotRecord where
  state : SlotState
  operation : Option Operation
  attempts : Nat
  cause : Option CancelCause
  waitTimer : Option Nat
  backoffTimer : Option Nat
  refusal : RefusalCode
  aborted : Bool
  owed : Bool
  /-- The removal of the slot's CANCEL did not find it: the slot ends at the CANCEL's completion, whatever
  its outcome (R86). -/
  ending : Bool
  deriving DecidableEq, Repr

/-- State of a hold entry (R73). -/
inductive HoldState where
  | reserved | held | releasing | downgrading | revoked
  deriving DecidableEq, Repr

/-- Entry of the local hold table (R73). -/
structure Hold where
  lock : LockId
  slot : SlotId
  mode : Mode
  state : HoldState
  /-- The reassert-sent mark. -/
  mark : Bool
  deriving DecidableEq, Repr

/-- GRANT answer in flight (R90), with the failure of waits held meanwhile (R91). -/
structure Answer where
  slot : SlotId
  lock : LockId
  mode : Mode
  accept : Bool
  cancelToEnd : Bool
  failHeld : Bool
  deriving DecidableEq, Repr

/-- A response the HTU has handed to the RQT for a self-homed request (R52). -/
structure SelfResponse where
  slot : SlotId
  kind : Kind
  response : Response
  deriving DecidableEq, Repr

/-- Phase of the reassert walker (R141). -/
inductive WalkerPhase where
  | sending | closing
  deriving DecidableEq, Repr

/-- The RQT (R97), with the reassert walker (R141) and the slot parameter registers (R168). `holds` lists
(position, entry) pairs, positions strictly rising (R174). -/
structure Rqt where
  slots : Vector SlotRecord 32
  holds : List (Nat × Hold)
  answer : Option Answer
  waitLimits : Vector (BitVec 16) 32
  homes : List StationId
  phase : Option WalkerPhase
  outstanding : Nat
  responses : List SelfResponse
  deriving DecidableEq, Repr

/-! ### Membership Unit -/

/-- State of a membership record (R112). -/
inductive MemberState where
  | self | absent | present | lost
  deriving DecidableEq, Repr

/-- Membership record (R112): the timer holds the microseconds elapsed while it runs. -/
structure Member where
  state : MemberState
  timer : Option Nat
  deriving DecidableEq, Repr

/-- The MBU (R129). -/
structure Mbu where
  members : Vector Member 16
  beaconTimer : Option Nat
  wonMark : Bool
  deriving DecidableEq, Repr

/-! ### Completion Queue Unit -/

/-- Result codes (R170). -/
inductive ResultCode where
  | acquired | wouldBlock | refusedLimit | voidLimit | homeAbsent | cancelled | timedOut | homeLost
  | homeEvicted | alreadyHeld | noSpace | released | notHeld | downgraded | holdLost | notExclusive
  deriving DecidableEq, Repr

/-- Result details (R170). -/
inductive ResultDetail where
  | none | waitFull | holdFull | plain | stale | absent | revoked | held
  deriving DecidableEq, Repr

/-- Entries of the completion queue (R98, R99). -/
inductive QueueEntry where
  | result (slot : SlotId) (op : Op) (lock : LockId) (mode : Option Mode) (code : ResultCode)
      (detail : ResultDetail)
  | notice (slot : SlotId)
  | station
  deriving DecidableEq, Repr

/-- A station event as it is raised (R102). -/
inductive Event where
  | joined | online | duplicateId | peerJoined (p : StationId) | peerLeft (p : StationId)
  | peerLost (p : StationId) | evictedBy (p : StationId) | rebuildEvicted (p : StationId)
  | flushDone | left
  deriving DecidableEq, Repr

/-- The station event set (R102): a place with a peer holds the station while it is raised. -/
structure EventSet where
  joined : Bool
  online : Bool
  duplicateId : Bool
  peerJoined : Option StationId
  peerLeft : Option StationId
  peerLost : Option StationId
  evictedBy : Option StationId
  rebuildEvicted : Option StationId
  flushDone : Bool
  left : Bool
  deriving DecidableEq, Repr

/-- Where a PULSE line stands (R108). -/
inductive PulsePhase where
  | idle | high | gap
  deriving DecidableEq, Repr

/-- A notify line's own state (R108). -/
structure Line where
  owed : Nat
  phase : PulsePhase
  deriving DecidableEq, Repr

/-- The CQU (R111). -/
structure Cqu where
  queue : List QueueEntry
  notices : Vector Bool 32
  events : EventSet
  lines : Vector Line 4
  deriving DecidableEq, Repr

/-! ### Pins and the whole -/

/-- The reset pins as the board drives them (R180) and the word the last queue head read returned. -/
structure Port where
  porAsserted : Bool
  srstAsserted : Bool
  readData : Word
  deriving DecidableEq, Repr

/-- The station: its blocks and pins. -/
structure Hw where
  scu : Scu
  lbc : Lbc
  htu : Htu
  rqt : Rqt
  mbu : Mbu
  cqu : Cqu
  port : Port
  deriving DecidableEq, Repr

/-- The machine: the station, and the queue of commands that wait, first in, first out (the model's own
field, DESIGN CHOICE, log 22; unsafe only where a claim reads the queue as the part's own). -/
structure State where
  hw : Hw
  pending : List Instr
  deriving DecidableEq, Repr

/-- Faults. The spec names no event that stops the part, so no constructor: no command faults (safe:
nothing is hidden behind a stop). -/
inductive Fault where
  deriving DecidableEq, Repr

/-- Refusals. -/
inductive Refusal where
  /-- Raised by `exec`'s arm of a command that has no meaning yet; no arm raises it now. Safe. -/
  | notModelled (mnemonic : String)
  deriving DecidableEq, Repr

/-! ### Reset values -/

/-- A slot at IDLE with its operation fields absent (R97), keeping a refusal code and an owed-response
mark. -/
def SlotRecord.idleWith (refusal : RefusalCode) (owed : Bool) : SlotRecord :=
  { state := .idle, operation := none, attempts := 0, cause := none, waitTimer := none,
    backoffTimer := none, refusal, aborted := false, owed, ending := false }

/-- A slot after reset (R97, R164). -/
def SlotRecord.reset : SlotRecord := .idleWith .none false

/-- The LBC after a reset and own LEAVE completion (R50). -/
def Lbc.reset : Lbc := { pointer := 15, normal := [], priority := [], record := none }

/-- The HTU in INACTIVE (R25). -/
def Htu.reset : Htu :=
  { holders := [], waiters := [], backlog := [], posted := 0, stalled := [], purge := none,
    engaged := .free, claims := [], arriving := [], decision := none, awaited := 0, rebuildTimer := none }

/-- The RQT after a reset (R97, R153, R168). -/
def Rqt.reset : Rqt :=
  { slots := Vector.replicate 32 .reset, holds := [], answer := none,
    waitLimits := Vector.replicate 32 0, homes := [], phase := none, outstanding := 0,
    responses := [] }

/-- The MBU after a reset and own LEAVE completion (R129). -/
def Mbu.reset : Mbu :=
  { members := Vector.replicate 16 ⟨.absent, none⟩, beaconTimer := none, wonMark := false }

/-- The empty event set (R102). -/
def EventSet.empty : EventSet :=
  { joined := false, online := false, duplicateId := false, peerJoined := none, peerLeft := none,
    peerLost := none, evictedBy := none, rebuildEvicted := none, flushDone := false, left := false }

/-- The CQU after a reset (R111). -/
def Cqu.reset : Cqu :=
  { queue := [], notices := Vector.replicate 32 false, events := .empty,
    lines := Vector.replicate 4 ⟨0, .idle⟩ }

/-- The SCU after power-on reset with the straps sampled (R152, R153, R173). -/
def Scu.reset (id : StationId) (bpsel : Fin 4) : Scu :=
  { station := .offline, flushing := false, frozen := false, listenTimer := none,
    commandStatus := .none, configStatus := .none, id, bpsel,
    routes := Vector.replicate 32 (.line 0), stationRoute := .line 3,
    lineModes := Vector.replicate 4 .level, backoffBase := Config.defaultBackoffBase,
    attemptLimit := Config.defaultAttemptLimit, lossThreshold := Config.defaultLossThreshold }

/-- The machine right after power-on reset: POR_N and SRST_N released and the straps left open, which
read 0 (R179). DESIGN CHOICE (log 1), unsafe: a claim about reset with other straps needs
POR_N_RELEASE. The read latch is 0, DESIGN CHOICE (log 2), unsafe. -/
def State.reset : State :=
  { hw :=
      { scu := .reset 0 0, lbc := .reset, htu := .reset, rqt := .reset, mbu := .reset, cqu := .reset,
        port := { porAsserted := false, srstAsserted := false, readData := 0 } }
    pending := [] }

end Sys2Proof.Machine
end

