-- ==== Sys2Proof/Machine/Operands.lean ====
section
/-! DEFINITION. Every operand form the two parties see: lock numbers (R1), lockbus request and response
words with their parity (R165, R166), and the fields of the words written at the local port
(R168, R173). -/

namespace Sys2Proof.Machine

/-! ### Lock numbers (R1) -/

/-- Home station of a lock: the lock number divided by 256 (R1). -/
def homeOf (l : LockId) : StationId := ⟨l.val / 256, by omega⟩

/-- Lock index at its home: the lock number modulo 256 (R1). -/
def indexOf (l : LockId) : LockIndex := ⟨l.val % 256, by omega⟩

/-- The full lock number of an index at home `h` (R11). -/
def lockAt (h : StationId) (i : LockIndex) : LockId := ⟨h.val * 256 + i.val, by omega⟩

/-! ### Request words (R165) -/

/-- Kind code (R165). -/
def kindCode : Kind → BitVec 4
  | .acquire => 1
  | .release => 2
  | .downgrade => 3
  | .cancel => 4
  | .grant => 5
  | .reassert => 6
  | .beacon => 7
  | .join => 8
  | .leave => 9
  | .purge => 10
  | .evict => 11

/-- The kind a code stands for; 0 and 12 to 15 hold none (R165, note 1). -/
def kindOfCode (c : BitVec 4) : Option Kind :=
  match c.toNat with
  | 1 => some .acquire
  | 2 => some .release
  | 3 => some .downgrade
  | 4 => some .cancel
  | 5 => some .grant
  | 6 => some .reassert
  | 7 => some .beacon
  | 8 => some .join
  | 9 => some .leave
  | 10 => some .purge
  | 11 => some .evict
  | _ => none

/-- Mode bit: 0 SHARED, 1 EXCLUSIVE (R165). -/
def modeBit : Mode → BitVec 1
  | .shared => 0
  | .exclusive => 1

/-- The mode a bit stands for (R165). -/
def modeOfBit (b : BitVec 1) : Mode := if b = 1 then .exclusive else .shared

/-- Request word 0 (R165), written from bit 31 down. -/
def requestWord0 (source : StationId) (t : Transaction) : Word :=
  0#4 ++ kindCode t.kind ++ bit t.endFlag ++ bit t.tryFlag ++ modeBit t.mode
    ++ BitVec.ofNat 4 source.val ++ BitVec.ofNat 5 t.slot.val ++ BitVec.ofNat 12 t.lock.val

/-- Request word 1 (R165), written from bit 31 down. -/
def requestWord1 (t : Transaction) : Word :=
  0#23 ++ BitVec.ofNat 5 t.targetSlot.val ++ BitVec.ofNat 4 t.target.val

/-- The source station field of word 0 (R165). -/
def sourceField (w0 : Word) : StationId := (bits w0 17 4).toFin

/-- The transaction two request words carry; none where the kind field holds no defined kind. Bits 28–31
of word 0 and bits 9–31 of word 1 are not read (R165, note 2). -/
def readRequest (w0 w1 : Word) : Option Transaction :=
  (kindOfCode (bits w0 24 4)).map fun kind =>
    { kind
      slot := (bits w0 12 5).toFin
      mode := modeOfBit (bits w0 21 1)
      tryFlag := w0.getLsbD 22
      endFlag := w0.getLsbD 23
      lock := (bits w0 0 12).toFin
      target := (bits w1 0 4).toFin
      targetSlot := (bits w1 4 5).toFin }

/-- The kinds with a response phase (R43, R44). -/
def Kind.hasResponse : Kind → Bool
  | .acquire | .release | .downgrade | .cancel | .grant | .reassert => true
  | .beacon | .join | .leave | .purge | .evict => false

/-- The kinds answered by the home of a lock (R33). -/
def Kind.isLock : Kind → Bool
  | .acquire | .release | .downgrade | .cancel | .reassert => true
  | .grant | .beacon | .join | .leave | .purge | .evict => false

/-- The kinds of a slot's own entry in the normal list (R45). -/
def Kind.isSlot : Kind → Bool
  | .acquire | .release | .downgrade | .cancel => true
  | .grant | .reassert | .beacon | .join | .leave | .purge | .evict => false

/-! ### Response words (R166) -/

/-- Response code (R166). -/
def responseCode : Response → BitVec 4
  | .granted => 1
  | .queued => 2
  | .busy => 3
  | .refused _ => 4
  | .done => 5
  | .stale => 6
  | .notWaiting => 7
  | .accept => 8
  | .decline => 9
  | .conflict => 10

/-- Response detail (R166): NONE but with REFUSED. -/
def responseDetail : Response → BitVec 4
  | .refused .waitFull => 1
  | .refused .holdFull => 2
  | .refused .rebuilding => 3
  | .granted | .queued | .busy | .done | .stale | .notWaiting | .accept | .decline | .conflict => 0

/-- Response word (R166), written from bit 31 down. -/
def responseWord (r : Response) : Word := 0#24 ++ responseDetail r ++ responseCode r

/-- The responses R44 lists for a kind. -/
def responsesOf : Kind → List Response
  | .acquire => [.granted, .queued, .busy, .refused .waitFull, .refused .holdFull, .refused .rebuilding]
  | .release => [.done, .stale]
  | .downgrade => [.done, .stale, .refused .rebuilding]
  | .cancel => [.done, .notWaiting]
  | .grant => [.accept, .decline]
  | .reassert => [.done, .conflict, .stale]
  | .beacon | .join | .leave | .purge | .evict => []

/-- The response a word carries for a kind: the listed one with the word's code and detail, or none, a
framing error (R166, note 1). Bits 8–31 are not read. -/
def readResponse (k : Kind) (w : Word) : Option Response :=
  (responsesOf k).find? fun r => responseCode r == bits w 0 4 && responseDetail r == bits w 4 4

/-! ### Parity (R35, R166) -/

/-- Number of asserted lines of a half-word. -/
def onesOf (h : BitVec 16) : Nat := (List.range 16).countP fun i => h.getLsbD i

/-- The LPAR lines driven with a word: each asserted when its half holds an odd count (R166). -/
def parityOf (w : Word) : BitVec 2 :=
  bit (onesOf (bits w 16 16) % 2 = 1) ++ bit (onesOf (bits w 0 16) % 2 = 1)

/-- The check of a half-word with its parity line: an even count (R35). -/
def halfEven (h : BitVec 16) (p : Bool) : Bool := (onesOf h + p.toNat) % 2 == 0

/-- The check of a word with its two parity lines (R35). -/
def parityEven (w : Word) (p : BitVec 2) : Bool :=
  halfEven (bits w 0 16) (p.getLsbD 0) && halfEven (bits w 16 16) (p.getLsbD 1)

/-! ### Port words -/

/-- The mode field of a slot command: 1 SHARED, 2 EXCLUSIVE, 0 and 3 none (R168). -/
def modeField (m : BitVec 2) : Option Mode :=
  match m.toNat with
  | 1 => some .shared
  | 2 => some .exclusive
  | _ => none

/-- The lock field of a slot command: 0 to 4095, above that none (R168). -/
def lockField (l : BitVec 13) : Option LockId :=
  if h : l.toNat < 4096 then some ⟨l.toNat, h⟩ else none

/-- A route field: 0 to 3 a line, 4 NONE, 5 to 7 out of range (R173). -/
def routeField (r : BitVec 3) : Option Route :=
  if h : r.toNat < 4 then some (.line ⟨r.toNat, h⟩)
  else if r = 4 then some .none else none

/-- A route as its field (R173). -/
def routeCode : Route → BitVec 3
  | .line n => BitVec.ofNat 3 n.val
  | .none => 4

/-- The eight route fields of a routes word, slot 8k + j in bits 4j to 4j + 2, when all are in range
(R173). -/
def routeFields (w : Word) : Option (Vector Route 8) :=
  if (List.finRange 8).all fun j => (routeField (bits w (4 * j.val) 3)).isSome then
    some (Vector.ofFn fun j => (routeField (bits w (4 * j.val) 3)).getD .none)
  else none

/-- The fields of the station configuration register (R173). -/
structure StationConfig where
  route : Route
  modes : Vector LineMode 4
  backoffBase : BitVec 6
  attemptLimit : BitVec 4
  lossThreshold : BitVec 3
  deriving DecidableEq, Repr

/-- The line modes of a station configuration word, bits 4 to 7 (R173). -/
def modeFields (w : Word) : Vector LineMode 4 :=
  Vector.ofFn fun i => if w.getLsbD (4 + i.val) then .pulse else .level

/-- The fields of a station configuration word, when every one is in range (R173). -/
def stationConfigFields (w : Word) : Option StationConfig :=
  match routeField (bits w 0 3) with
  | none => none
  | some route =>
    if bits w 8 6 = 0 ∨ bits w 16 4 = 0 ∨ (bits w 20 3).toNat < 2 then none
    else some
      { route, modes := modeFields w, backoffBase := bits w 8 6, attemptLimit := bits w 16 4,
        lossThreshold := bits w 20 3 }

end Sys2Proof.Machine
end

