-- ==== Sys2Proof/Machine/Ops.lean ====
section
/-! DEFINITION. The named operations over the station's registers, tables and lists: what the blocks read
and write, each in one place. A block has no exception entry; raising an event or a line is in
Flags.lean. -/

namespace Sys2Proof.Machine

/-! ### Station state -/

/-- The home state follows the station state (R3). -/
def StationState.home : StationState → HomeState
  | .offline | .listening | .joining | .duplicate => .inactive
  | .rebuilding => .rebuilding
  | .online | .leaving => .serving

/-- REBUILDING, ONLINE or LEAVING: the station asserts its presence bit, responds and may assert LVOID
(R27, R33). -/
def StationState.present : StationState → Bool
  | .rebuilding | .online | .leaving => true
  | .offline | .listening | .joining | .duplicate => false

/-- The states that observe transactions (R27). -/
def StationState.observes : StationState → Bool
  | .listening | .joining | .rebuilding | .online | .leaving => true
  | .offline | .duplicate => false

/-- This station's ID. -/
abbrev Hw.id (h : Hw) : StationId := h.scu.id

/-- The home state of this station's HTU (R3). -/
abbrev Hw.home (h : Hw) : HomeState := h.scu.station.home

/-- The beacon period P in force, in microseconds. -/
def Hw.period (h : Hw) : Nat := Config.beaconPeriod h.scu.bpsel

/-! ### Slots (R71) -/

/-- A slot's record. -/
def Rqt.slot (q : Rqt) (n : SlotId) : SlotRecord := q.slots.get n

/-- A slot's record replaced. -/
def Rqt.setSlot (q : Rqt) (n : SlotId) (r : SlotRecord) : Rqt :=
  { q with slots := q.slots.set n.val r n.isLt }

/-- A slot's record. -/
abbrev Hw.slot (h : Hw) (n : SlotId) : SlotRecord := h.rqt.slot n

/-- A slot's record replaced. -/
def Hw.setSlot (n : SlotId) (r : SlotRecord) (h : Hw) : Hw := { h with rqt := h.rqt.setSlot n r }

/-- The slot has an operation of the given kind. -/
def SlotRecord.hasOp (r : SlotRecord) (op : Op) : Bool :=
  match r.operation with
  | some o => o.op = op
  | none => false

/-- The lock of the slot's operation is `l`. -/
def SlotRecord.onLock (r : SlotRecord) (l : LockId) : Bool :=
  match r.operation with
  | some o => o.lock = l
  | none => false

/-- The lock of the slot's operation is homed at station `s`. -/
def SlotRecord.homedAt (r : SlotRecord) (s : StationId) : Bool :=
  match r.operation with
  | some o => homeOf o.lock = s
  | none => false

/-! ### Local hold table (R73, R174) -/

/-- The slot's entry for a lock. -/
def findHold (slot : SlotId) (lock : LockId) (t : List (Nat × Hold)) : Option Hold :=
  (t.find? fun p => p.2.slot = slot ∧ p.2.lock = lock).map (·.2)

/-- The slot's entry for a lock, altered in place. -/
def updateHold (slot : SlotId) (lock : LockId) (f : Hold → Hold) (t : List (Nat × Hold)) :
    List (Nat × Hold) :=
  t.map fun p => if p.2.slot = slot ∧ p.2.lock = lock then (p.1, f p.2) else p

/-- The slot's entry for a lock, removed; its position is free again. -/
def removeHold (slot : SlotId) (lock : LockId) (t : List (Nat × Hold)) : List (Nat × Hold) :=
  t.filter fun p => ¬(p.2.slot = slot ∧ p.2.lock = lock)

/-- A new entry in the lowest free position from `pos` on (R174). -/
def insertHoldFrom (pos : Nat) (e : Hold) : List (Nat × Hold) → List (Nat × Hold)
  | [] => [(pos, e)]
  | p :: t => if pos < p.1 then (pos, e) :: p :: t else p :: insertHoldFrom (p.1 + 1) e t

/-- A new entry in the lowest free position (R174). -/
def insertHold (e : Hold) (t : List (Nat × Hold)) : List (Nat × Hold) := insertHoldFrom 0 e t

/-- Number of the slot's REVOKED entries: its revoked count (R71, R74). -/
def revokedCount (slot : SlotId) (t : List (Nat × Hold)) : Nat :=
  t.countP fun p => p.2.slot = slot ∧ p.2.state = .revoked

/-- A hold with its state and mode. -/
def Hold.become (s : HoldState) (m : Mode) (e : Hold) : Hold := { e with state := s, mode := m }

/-- The local hold table replaced. -/
def Hw.setHolds (t : List (Nat × Hold)) (h : Hw) : Hw := { h with rqt := { h.rqt with holds := t } }

/-- The marks of all holds on home `s`'s locks cleared (R142, R145). -/
def clearMarks (s : StationId) (t : List (Nat × Hold)) : List (Nat × Hold) :=
  t.map fun p => if homeOf p.2.lock = s then (p.1, { p.2 with mark := false }) else p

/-! ### Transmit lists (R45 to R48) -/

/-- An entry placed at the tail of the normal list. -/
def placeNormal (t : Transaction) (h : Hw) : Hw :=
  { h with lbc := { h.lbc with normal := h.lbc.normal ++ [t] } }

/-- An entry placed at the tail of the priority list. -/
def placePriority (t : Transaction) (h : Hw) : Hw :=
  { h with lbc := { h.lbc with priority := h.lbc.priority ++ [t] } }

/-- A kept entry returned to the head of the normal list (R40). -/
def returnNormal (t : Transaction) (h : Hw) : Hw :=
  { h with lbc := { h.lbc with normal := t :: h.lbc.normal } }

/-- A kept entry returned to the head of the priority list (R40). -/
def returnPriority (t : Transaction) (h : Hw) : Hw :=
  { h with lbc := { h.lbc with priority := t :: h.lbc.priority } }

/-- The entries of the normal list that a removal key names taken out (R48). -/
def removeNormal (key : Transaction → Bool) (h : Hw) : Hw :=
  { h with lbc := { h.lbc with normal := h.lbc.normal.filter fun t => !key t } }

/-- The entries of the priority list that a removal key names taken out (R48). -/
def removePriority (key : Transaction → Bool) (h : Hw) : Hw :=
  { h with lbc := { h.lbc with priority := h.lbc.priority.filter fun t => !key t } }

/-- Key: the slot's own entry. -/
def isSlotEntry (n : SlotId) (t : Transaction) : Bool := t.kind.isSlot && t.slot = n

/-- Key: a GRANT of this station to a slot of another, for a lock (R16). -/
def isGrantTo (station : StationId) (slot : SlotId) (lock : LockId) (t : Transaction) : Bool :=
  t.kind = .grant && t.target = station && t.targetSlot = slot && t.lock = lock

/-- Key: a REASSERT that carries a lock. -/
def isLockReassert (t : Transaction) : Bool := t.kind = .reassert && !t.endFlag

/-- Key: a walker REASSERT to home `s`, the closing one included. -/
def isReassertTo (s : StationId) (t : Transaction) : Bool := t.kind = .reassert && homeOf t.lock = s

/-- Key: an EVICT naming station `s`. -/
def isEvictOf (s : StationId) (t : Transaction) : Bool := t.kind = .evict && t.target = s

/-- The RQT's removal request finds the slot's entry (R80). -/
def slotEntryListed (n : SlotId) (h : Hw) : Bool := h.lbc.normal.any (isSlotEntry n)

/-- The entry this station has on the lockbus, if any (R31). -/
def entryOnBus (h : Hw) : Option Transaction := h.lbc.record.bind (·.entry)

/-- A BEACON of this station is listed or on the lockbus (R116). -/
def beaconOut (h : Hw) : Bool :=
  h.lbc.normal.any (·.kind = .beacon) ||
    match entryOnBus h with
    | some t => t.kind = .beacon
    | none => false

/-! ### Membership records (R112) -/

/-- A membership record. -/
def Mbu.member (m : Mbu) (s : StationId) : Member := m.members.get s

/-- A membership record replaced. -/
def Mbu.setMember (m : Mbu) (s : StationId) (r : Member) : Mbu :=
  { m with members := m.members.set s.val r s.isLt }

/-- A membership record replaced. -/
def Hw.setMember (s : StationId) (r : Member) (h : Hw) : Hw := { h with mbu := h.mbu.setMember s r }

/-- Every record altered, each with its ID. -/
def Mbu.mapMembers (f : StationId → Member → Member) (m : Mbu) : Mbu :=
  { m with members := Vector.ofFn fun s => f s (m.member s) }

/-! ### Home tables (R5, R7) -/

/-- The holder entries of a lock (R2). -/
def holdersOf (i : LockIndex) (t : Htu) : List Holder := t.holders.filter (·.index = i)

/-- The head of a lock's queue (R7). -/
def headWaiter (i : LockIndex) (t : Htu) : Option Waiter := t.waiters.find? (·.index = i)

/-- A mode is compatible with a set of holder entries (R2). -/
def compatible (m : Mode) (es : List Holder) : Bool :=
  es.all fun e => m = .shared ∧ e.mode = .shared

/-- The holder table has a free entry (R5). -/
def holderFree (t : Htu) : Bool := t.holders.length < Config.holderCapacity

/-- The waiter pool has a free entry (R7). -/
def waiterFree (t : Htu) : Bool := t.waiters.length < Config.waiterCapacity

/-- The HTU replaced. -/
def Hw.setHtu (t : Htu) (h : Hw) : Hw := { h with htu := t }

/-- A claim arrives (R53): at an engaged home it waits at the tail of the pending claims; a free home takes it at
once, by the claim's own command, and it does not enter the list (log 5). -/
def Htu.receive (c : Claim) (t : Htu) : Htu :=
  if t.engaged = .free then { t with arriving := t.arriving ++ [c] }
  else { t with claims := t.claims ++ [c] }

/-- A claim that arrives at the home. -/
def addClaim (c : Claim) (h : Hw) : Hw := h.setHtu (h.htu.receive c)

/-- The home engaged (R23): the claims that reached it and are not yet taken wait from now on. -/
def Htu.engage (e : Engagement) (t : Htu) : Htu :=
  { t with engaged := e, claims := t.claims ++ t.arriving, arriving := [] }

/-- The home free (R23). -/
def Htu.freed (t : Htu) : Htu := { t with engaged := .free, decision := none }

/-- An index put into an ascending list without repeats (the touched-lock set, R19; the order of
evaluation, R9). -/
def insertIndex (i : LockIndex) : List LockIndex → List LockIndex
  | [] => [i]
  | j :: t => if i < j then i :: j :: t else if i = j then j :: t else j :: insertIndex i t

/-- The ascending list of the indices of a list. -/
def ascending (l : List LockIndex) : List LockIndex := l.foldr insertIndex []

/-- The members of a station set, in ascending ID. -/
def stationsOf (b : BitVec 16) : List StationId := (List.finRange 16).filter fun s => b.getLsbD s.val

/-- One station's bit of a station set, or its line among the sixteen. -/
def stationBit (s : StationId) : BitVec 16 := BitVec.twoPow 16 s.val

end Sys2Proof.Machine
end

