-- ==== Sys2Proof/Machine/Flags.lean ====
section
/-! DEFINITION. The Completion Queue Unit: appending entries, the notify lines, the notice marks and the
station event set (chapter 5). -/

namespace Sys2Proof.Machine

/-! ### Routes and lines (R106 to R109) -/

/-- The route of an entry under the configuration in force (R106). -/
def routeOf (c : Scu) : QueueEntry → Route
  | .result slot _ _ _ _ _ => c.routes.get slot
  | .notice slot => c.routes.get slot
  | .station => c.stationRoute

/-- A notify line as driven: LEVEL while an entry routed to it stands in the queue (R107), PULSE while a
pulse is in its asserted part (R108). -/
def lineAsserted (h : Hw) (n : LineId) : Bool :=
  match h.scu.lineModes.get n with
  | .level => h.cqu.queue.any fun e => routeOf h.scu e = .line n
  | .pulse => (h.cqu.lines.get n).phase = .high

/-- A PULSE line marks an append: one more pulse owed, up to 255, and a pulse starts if none is in
progress (R108). -/
def Line.mark (l : Line) : Line :=
  { owed := min (l.owed + 1) Config.pulseCeiling
    phase := if l.phase = .idle then .high else l.phase }

/-- A line ends one pulse and its gap; the next pulse owed starts (R108). -/
def Line.endPulse (l : Line) : Line :=
  { owed := l.owed - 1, phase := if l.owed - 1 = 0 then .idle else .high }

/-- A line's own state replaced. -/
def Cqu.setLine (c : Cqu) (n : LineId) (l : Line) : Cqu :=
  { c with lines := c.lines.set n.val l n.isLt }

/-- The lines after an append of an entry routed to `r` (R108). -/
def Cqu.markRoute (cfg : Scu) (r : Route) (c : Cqu) : Cqu :=
  match r with
  | .none => c
  | .line n =>
    match cfg.lineModes.get n with
    | .level => c
    | .pulse => c.setLine n (c.lines.get n).mark

/-- An entry appended at the tail of the completion queue (R98). -/
def Cqu.append (cfg : Scu) (e : QueueEntry) (c : Cqu) : Cqu :=
  ({ c with queue := c.queue ++ [e] }).markRoute cfg (routeOf cfg e)

/-- An entry appended at the tail of the completion queue (R98). -/
def appendEntry (e : QueueEntry) (h : Hw) : Hw := { h with cqu := h.cqu.append h.scu e }

/-! ### Notices (R100) -/

/-- A slot's notice-pending mark. -/
def Cqu.notice (c : Cqu) (n : SlotId) : Bool := c.notices.get n

/-- A slot's notice-pending mark set or cleared. -/
def Cqu.setNotice (c : Cqu) (n : SlotId) (b : Bool) : Cqu :=
  { c with notices := c.notices.set n.val b n.isLt }

/-- The RQT asks for a NOTICE for a slot (R100). -/
def requestNotice (n : SlotId) (h : Hw) : Hw :=
  if h.cqu.notice n then h
  else appendEntry (.notice n) { h with cqu := h.cqu.setNotice n true }

/-! ### Station event set (R102, R103) -/

/-- An event's place raised, with its peer written into it (R102). -/
def EventSet.raise (ev : Event) (s : EventSet) : EventSet :=
  match ev with
  | .joined => { s with joined := true }
  | .online => { s with online := true }
  | .duplicateId => { s with duplicateId := true }
  | .peerJoined p => { s with peerJoined := some p }
  | .peerLeft p => { s with peerLeft := some p }
  | .peerLost p => { s with peerLost := some p }
  | .evictedBy p => { s with evictedBy := some p }
  | .rebuildEvicted p => { s with rebuildEvicted := some p }
  | .flushDone => { s with flushDone := true }
  | .left => { s with left := true }

/-- A station event raised: recorded in the set, and a STATION entry appended when the set was empty
(R102, R103). -/
def raiseEvent (ev : Event) (h : Hw) : Hw :=
  let raised : Hw := { h with cqu := { h.cqu with events := h.cqu.events.raise ev } }
  if h.cqu.events = .empty then appendEntry .station raised else raised

/-! ### The words of the queue head register (R170) -/

/-- Operation field (R170). -/
def opCode : Op → BitVec 2
  | .acquire => 1
  | .release => 2
  | .downgrade => 3

/-- Mode field with absence (R169, R170). -/
def modeCode : Option Mode → BitVec 2
  | none => 0
  | some .shared => 1
  | some .exclusive => 2

/-- Result code (R170). -/
def resultCode : ResultCode → BitVec 5
  | .acquired => 1
  | .wouldBlock => 2
  | .refusedLimit => 3
  | .voidLimit => 4
  | .homeAbsent => 5
  | .cancelled => 6
  | .timedOut => 7
  | .homeLost => 8
  | .homeEvicted => 9
  | .alreadyHeld => 10
  | .noSpace => 11
  | .released => 12
  | .notHeld => 13
  | .downgraded => 14
  | .holdLost => 15
  | .notExclusive => 16

/-- Result detail (R170). -/
def resultDetail : ResultDetail → BitVec 4
  | .none => 0
  | .waitFull => 1
  | .holdFull => 2
  | .plain => 3
  | .stale => 4
  | .absent => 5
  | .revoked => 6
  | .held => 7

/-- A peer field: 0 when the kind is not raised (R170, note 1). -/
def peerField : Option StationId → BitVec 4
  | none => 0
  | some p => BitVec.ofNat 4 p.val

/-- The word of a STATION entry (R170), written from bit 31 down. -/
def eventWord (s : EventSet) : Word :=
  peerField s.rebuildEvicted ++ peerField s.evictedBy ++ peerField s.peerLost ++ peerField s.peerLeft
    ++ peerField s.peerJoined ++ bit s.left ++ bit s.flushDone ++ bit s.rebuildEvicted.isSome
    ++ bit s.evictedBy.isSome ++ bit s.peerLost.isSome ++ bit s.peerLeft.isSome
    ++ bit s.peerJoined.isSome ++ bit s.duplicateId ++ bit s.online ++ bit s.joined ++ 3#2

/-- The word a read returns for a head entry: a NOTICE with the revoked count and the STATION entry with
the event set as they stand at the read (R101, R104, R170). -/
def entryWord (h : Hw) : QueueEntry → Word
  | .result slot op lock mode code detail =>
    resultDetail detail ++ resultCode code ++ BitVec.ofNat 12 lock.val ++ modeCode mode ++ opCode op
      ++ BitVec.ofNat 5 slot.val ++ 1#2
  | .notice slot =>
    0#16 ++ BitVec.ofNat 8 (revokedCount slot h.rqt.holds) ++ 0#1 ++ BitVec.ofNat 5 slot.val ++ 2#2
  | .station => eventWord h.cqu.events

/-! ### Removal by a flush (R110) -/

/-- The start of a flush removes RESULTs and NOTICEs and clears every notice mark (R110). -/
def Cqu.flush (c : Cqu) : Cqu :=
  { c with queue := c.queue.filter (· = .station), notices := Vector.replicate 32 false }

end Sys2Proof.Machine
end

