-- ==== Sys2Proof/Machine/Tracker.lean ====
section
/-! DEFINITION. The Request Tracker's operations (chapter 4) and the reassert walker (section 7.4): issuing
a slot's transaction, taking its outcome, ending its operation, answering offers, and the operations
other blocks invoke. -/

namespace Sys2Proof.Machine

/-! ### The reassert walker (R141 to R145) -/

/-- The walker's order among holds: lowest lock first, then lowest slot (R143). -/
def holdBefore (a b : Hold) : Bool :=
  a.lock.val < b.lock.val || (a.lock.val = b.lock.val && a.slot.val ≤ b.slot.val)

/-- A hold on home `s`'s locks that the walk still has to send (R143, step 1). -/
def toReassert (s : StationId) (e : Hold) : Bool :=
  homeOf e.lock = s && (e.state = .held || e.state = .downgrading) && !e.mark

/-- The hold the walker chooses next (R143, step 1). -/
def nextReassert (s : StationId) (t : List (Nat × Hold)) : Option Hold :=
  ((t.map (·.2)).filter (toReassert s)).foldl
    (fun best e =>
      match best with
      | none => some e
      | some b => if holdBefore b e then some b else some e)
    none

/-- The REASSERT of a hold (R143). -/
def reassertOf (e : Hold) : Transaction :=
  { kind := .reassert, slot := e.slot, mode := e.mode, lock := e.lock }

/-- The closing REASSERT to home `s`: end flag set, lock field H × 256 (R1, R143). -/
def closingReassert (s : StationId) : Transaction :=
  { kind := .reassert, endFlag := true, lock := lockAt s 0 }

/-- One REASSERT placed for the head home, if the walker may place one (R141, R143, R159). -/
def walkerPlaceOne (h : Hw) : Hw :=
  match h.rqt.homes, h.rqt.phase with
  | s :: _, some .sending =>
    if h.scu.station.present ∧ ¬h.scu.flushing ∧ h.rqt.outstanding < Config.outstandingLimit then
      match nextReassert s h.rqt.holds with
      | some e =>
        placePriority (reassertOf e)
          { h with
            rqt :=
              { h.rqt with
                holds := updateHold e.slot e.lock (fun x => { x with mark := true }) h.rqt.holds
                outstanding := h.rqt.outstanding + 1 } }
      | none =>
        placePriority (closingReassert s)
          { h with
            rqt := { h.rqt with outstanding := h.rqt.outstanding + 1, phase := some .closing } }
    else h
  | _, _ => h

/-- The walker acts: it places entries until four are outstanding or nothing remains to place
(R143). -/
def walkerAct (h : Hw) : Hw := walkerPlaceOne (walkerPlaceOne (walkerPlaceOne (walkerPlaceOne h)))

/-- The walker's list with its head in phase SENDING, or absent when the list is empty (R141). -/
def Rqt.restartWalk (homes : List StationId) (outstanding : Nat) (q : Rqt) : Rqt :=
  { q with homes, outstanding, phase := if homes.isEmpty then none else some .sending }

/-- The outstanding count lowered (R144). -/
def lowerOutstanding (n : Nat) (h : Hw) : Hw :=
  { h with rqt := { h.rqt with outstanding := h.rqt.outstanding - n } }

/-- The head home finished (R145): marks cleared, removed from the list, count 0, and the next home
walked. -/
def walkerFinish (s : StationId) (h : Hw) : Hw :=
  walkerAct
    { h with
      rqt := ({ h.rqt with holds := clearMarks s h.rqt.holds }).restartWalk (h.rqt.homes.erase s) 0 }

/-- A home dropped (R145): with its listed REASSERTs when it is the head, from its place otherwise. -/
def walkerDrop (s : StationId) (h : Hw) : Hw :=
  match h.rqt.homes with
  | [] => h
  | first :: _ =>
    if first = s then walkerFinish s (removePriority (isReassertTo s) h)
    else { h with rqt := { h.rqt with homes := h.rqt.homes.erase s } }

/-- A home that joined again added to the walker's list, or its walk restarted when it is the head
(R142). -/
def walkerAdd (s : StationId) (h : Hw) : Hw :=
  match h.rqt.homes with
  | [] => walkerAct { h with rqt := h.rqt.restartWalk [s] h.rqt.outstanding }
  | first :: _ =>
    if first = s then
      let listed := h.lbc.priority.countP (isReassertTo s)
      let cleared := removePriority (isReassertTo s) h
      walkerAct
        { cleared with
          rqt :=
            ({ h.rqt with holds := clearMarks s h.rqt.holds }).restartWalk h.rqt.homes
              (h.rqt.outstanding - listed) }
    else if s ∈ h.rqt.homes then h
    else { h with rqt := { h.rqt with homes := h.rqt.homes ++ [s] } }

/-! ### Issuing (R80) -/

/-- The kind of an operation's transaction. -/
def Op.kind : Op → Kind
  | .acquire => .acquire
  | .release => .release
  | .downgrade => .downgrade

/-- The slot's transaction of a kind, with the fields R43 gives it. -/
def slotTransaction (kind : Kind) (n : SlotId) (o : Operation) : Transaction :=
  { kind, slot := n, lock := o.lock
    mode := if kind = .acquire then o.mode.getD .shared else .shared
    tryFlag := if kind = .acquire then o.tryFlag else false }

/-- The slot's self-homed request of a kind (R52). -/
def slotRequest (kind : Kind) (own : StationId) (n : SlotId) (o : Operation) : Request :=
  { kind, station := own, slot := n, index := indexOf o.lock
    mode := if kind = .acquire then o.mode.getD .shared else .shared
    tryFlag := if kind = .acquire then o.tryFlag else false
    endFlag := false }

/-- The slot's ACQUIRE, RELEASE or DOWNGRADE issued to the home of its lock (R80): listed and QUEUED_OUT,
or handed to the own HTU and ON_BUS. -/
def issueOperation (n : SlotId) (h : Hw) : Hw :=
  match (h.slot n).operation with
  | none => h
  | some o =>
    if homeOf o.lock = h.id then
      addClaim (.selfRequest (slotRequest o.op.kind h.id n o))
        (h.setSlot n { h.slot n with state := .onBus })
    else
      placeNormal (slotTransaction o.op.kind n o) (h.setSlot n { h.slot n with state := .queuedOut })

/-- A CANCEL issued for the slot's ACQUIRE, the slot CANCELLING with its cause (R80). -/
def issueCancel (n : SlotId) (cause : CancelCause) (h : Hw) : Hw :=
  match (h.slot n).operation with
  | none => h
  | some o =>
    let cancelling :=
      h.setSlot n { h.slot n with state := .cancelling, cause := some cause, waitTimer := none }
    if homeOf o.lock = h.id then
      addClaim (.selfRequest (slotRequest .cancel h.id n o)) cancelling
    else placeNormal (slotTransaction .cancel n o) cancelling

/-! ### Ending an operation (R81) -/

/-- The slot's operation ends with a result (R81): timers stopped and cause cleared, a reservation
removed unless the result is ACQUIRED, a RESULT entry appended, the slot DONE. -/
def endOperation (n : SlotId) (code : ResultCode) (detail : ResultDetail) (mode : Option Mode)
    (h : Hw) : Hw :=
  match (h.slot n).operation with
  | none => h
  | some o =>
    let holds :=
      if code ≠ .acquired ∧ (findHold n o.lock h.rqt.holds).map (·.state) = some .reserved then
        removeHold n o.lock h.rqt.holds
      else h.rqt.holds
    appendEntry (.result n o.op o.lock mode code detail)
      ((h.setHolds holds).setSlot n
        { h.slot n with
          state := .done, waitTimer := none, backoffTimer := none, cause := none, ending := false })

/-- The slot's ACQUIRE ends; its RESULT carries the requested mode (R81). -/
def endAcquire (n : SlotId) (code : ResultCode) (detail : ResultDetail) (h : Hw) : Hw :=
  endOperation n code detail ((h.slot n).operation.bind (·.mode)) h

/-- The cancel result of a cause (R85). -/
def cancelResult : CancelCause → ResultCode
  | .client => .cancelled
  | .timeout => .timedOut

/-- The slot's ACQUIRE ends with the cancel result of a cause (R85, R86). -/
def endCancelled (n : SlotId) (cause : CancelCause) (h : Hw) : Hw :=
  endAcquire n (cancelResult cause) .none h

/-- The slot's ACQUIRE ends with the cancel result of the cause it recorded. -/
def endRecordedCancel (n : SlotId) (h : Hw) : Hw :=
  endCancelled n ((h.slot n).cause.getD .client) h

/-- The slot's reservation becomes HELD and the ACQUIRE ends with ACQUIRED (R74, R82, R91); the walker acts
on the new hold (R143). -/
def acquireHeld (n : SlotId) (mode : Mode) (h : Hw) : Hw :=
  match (h.slot n).operation with
  | none => h
  | some o =>
    walkerAct
      (endAcquire n .acquired .none
        (h.setHolds (updateHold n o.lock (Hold.become .held mode) h.rqt.holds)))

/-! ### Backoff (R83, R84) -/

/-- The backoff delay in microseconds: base × max(1, attempts) + 4 × own ID (R84). -/
def backoffDelay (c : Scu) (attempts : Nat) : Nat :=
  16 * c.backoffBase.toNat * max 1 attempts + 4 * c.id.val

/-- The slot goes to BACKOFF with its timer started (R84). -/
def enterBackoff (n : SlotId) (h : Hw) : Hw :=
  h.setSlot n
    { h.slot n with
      state := .backoff
      backoffTimer := some (backoffDelay h.scu (h.slot n).attempts) }

/-- One attempt counted (R83). -/
def countAttempt (n : SlotId) (h : Hw) : Hw :=
  h.setSlot n { h.slot n with attempts := (h.slot n).attempts + 1 }

/-- The slot's attempts have reached the attempt limit (R83). -/
def atLimit (n : SlotId) (h : Hw) : Bool := h.scu.attemptLimit.toNat ≤ (h.slot n).attempts

/-- The detail of REFUSED_LIMIT (R82). -/
def refusedResult : RefusedDetail → ResultDetail
  | .waitFull => .waitFull
  | .holdFull => .holdFull
  | .rebuilding => .none

/-- An attempt counted at a refusal for want of room, none at REFUSED(REBUILDING) (R83). -/
def countRefusal (n : SlotId) (d : RefusedDetail) (h : Hw) : Hw :=
  match d with
  | .waitFull | .holdFull => countAttempt n h
  | .rebuilding => h

/-! ### Outcomes of a slot's transaction (R82, R85 to R88) -/

/-- The answer to an ACQUIRE, with no cancel requested (R82) or with one (R85). -/
def acquireAnswered (n : SlotId) (r : Response) (h : Hw) : Hw :=
  match r with
  | .granted =>
    match (h.slot n).operation.bind (·.mode) with
    | some m => acquireHeld n m h
    | none => h
  | .queued =>
    match (h.slot n).cause with
    | none => h.setSlot n { h.slot n with state := .waiting }
    | some c => issueCancel n c h
  | .busy => endAcquire n .wouldBlock .none h
  | .refused d =>
    let counted := countRefusal n d h
    match (h.slot n).cause with
    | some c => endCancelled n c counted
    | none =>
      if d ≠ .rebuilding ∧ atLimit n counted then endAcquire n .refusedLimit (refusedResult d) counted
      else enterBackoff n counted
  | .done | .stale | .notWaiting | .accept | .decline | .conflict => h

/-- The mode of the slot's hold entry for its operation's lock. -/
def operationHold (n : SlotId) (h : Hw) : Option Hold :=
  (h.slot n).operation.bind fun o => findHold n o.lock h.rqt.holds

/-- The slot's hold entry for its operation's lock removed. -/
def dropOperationHold (n : SlotId) (h : Hw) : Hw :=
  match (h.slot n).operation with
  | none => h
  | some o => h.setHolds (removeHold n o.lock h.rqt.holds)

/-- The slot's hold entry for its operation's lock altered. -/
def setOperationHold (n : SlotId) (s : HoldState) (m : Mode) (h : Hw) : Hw :=
  match (h.slot n).operation with
  | none => h
  | some o => h.setHolds (updateHold n o.lock (Hold.become s m) h.rqt.holds)

/-- A RELEASE ends: entry removed, RELEASED with the mode of the entry it named (R81, R87). -/
def endRelease (n : SlotId) (detail : ResultDetail) (h : Hw) : Hw :=
  endOperation n .released detail ((operationHold n h).map (·.mode)) (dropOperationHold n h)

/-- The answer to a RELEASE (R87). -/
def releaseAnswered (n : SlotId) (r : Response) (h : Hw) : Hw :=
  match r with
  | .done => endRelease n .plain h
  | .stale => endRelease n .stale h
  | .granted | .queued | .busy | .refused _ | .notWaiting | .accept | .decline | .conflict => h

/-- The answer to a DOWNGRADE (R88). -/
def downgradeAnswered (n : SlotId) (r : Response) (h : Hw) : Hw :=
  match r with
  | .done =>
    walkerAct
      (endOperation n .downgraded .none (some .shared) (setOperationHold n .held .shared h))
  | .stale => endOperation n .holdLost .none none (dropOperationHold n h)
  | .refused _ => enterBackoff n h
  | .granted | .queued | .busy | .notWaiting | .accept | .decline | .conflict => h

/-- The answer to a CANCEL (R86). -/
def cancelAnswered (n : SlotId) (r : Response) (h : Hw) : Hw :=
  match r with
  | .done | .notWaiting => endRecordedCancel n h
  | .granted | .queued | .busy | .refused _ | .stale | .accept | .decline | .conflict => h

/-- The answer to a slot's transaction, by its kind. -/
def slotAnswered (k : Kind) (n : SlotId) (r : Response) (h : Hw) : Hw :=
  match k with
  | .acquire => acquireAnswered n r h
  | .release => releaseAnswered n r h
  | .downgrade => downgradeAnswered n r h
  | .cancel => cancelAnswered n r h
  | .grant | .reassert | .beacon | .join | .leave | .purge | .evict => h

/-- A slot's transaction that ended ABSENT (R82, R85 to R88). -/
def slotAbsent (k : Kind) (n : SlotId) (h : Hw) : Hw :=
  match k with
  | .acquire => endAcquire n .homeAbsent .none h
  | .release => endRelease n .absent h
  | .downgrade =>
    walkerAct
      (endOperation n .homeAbsent .none (some .exclusive) (setOperationHold n .held .exclusive h))
  | .cancel => endRecordedCancel n h
  | .grant | .reassert | .beacon | .join | .leave | .purge | .evict => h

/-- A voided slot entry kept: back at the head of the normal list, an ACQUIRE, RELEASE or DOWNGRADE slot
QUEUED_OUT, a CANCELLING slot as it is (R40, R82, R86 to R88). -/
def keepSlotEntry (t : Transaction) (h : Hw) : Hw :=
  returnNormal t
    (if t.kind = .cancel then h else h.setSlot t.slot { h.slot t.slot with state := .queuedOut })

/-- A slot's transaction that ended VOID (R40, R82, R85 to R88). A CANCELLING slot whose CANCEL was to be removed
ends here, and the CANCEL is given up (R86, log 28). -/
def slotVoid (t : Transaction) (h : Hw) : Hw :=
  if t.kind = .cancel ∧ (h.slot t.slot).ending then endRecordedCancel t.slot h
  else if t.kind = .acquire then
    let counted := countAttempt t.slot h
    match (h.slot t.slot).cause with
    | some c => endCancelled t.slot c counted
    | none =>
      if atLimit t.slot counted then endAcquire t.slot .voidLimit .none counted
      else keepSlotEntry t counted
  else keepSlotEntry t h

/-- The slot awaits the outcome of its transaction of a kind: ON_BUS, or CANCELLING for a CANCEL, and not
aborted. -/
def awaitsOutcome (k : Kind) (r : SlotRecord) : Bool :=
  !r.aborted && if k = .cancel then r.state = .cancelling else r.state = .onBus

/-- The outcome of a slot's lockbus transaction, taken by a slot that awaits it; an aborted slot's is discarded
and its entry given up (R156). -/
def slotOutcome (t : Transaction) (o : BusOutcome) (h : Hw) : Hw :=
  if awaitsOutcome t.kind (h.slot t.slot) then
    match o with
    | .void => slotVoid t h
    | .absent => slotAbsent t.kind t.slot h
    | .answered r => slotAnswered t.kind t.slot r h
    | .complete => h
  else h

/-! ### Self-homed responses (R52, R80, R156) -/

/-- A handed response taken as an event of its own, or discarded when the owed-response mark is set
(R80, R156). -/
def takeResponse (p : SelfResponse) (h : Hw) : Hw :=
  let rest : Hw := { h with rqt := { h.rqt with responses := h.rqt.responses.erase p } }
  if (h.slot p.slot).owed then rest.setSlot p.slot { h.slot p.slot with owed := false }
  else if awaitsOutcome p.kind (h.slot p.slot) then slotAnswered p.kind p.slot p.response rest
  else rest

/-- The oldest response handed for a slot taken, if there is one. -/
def takeSlotResponse (n : SlotId) (h : Hw) : Hw :=
  match h.rqt.responses.find? (·.slot = n) with
  | none => h
  | some p => takeResponse p h

/-- `k` responses handed for a slot taken, oldest first. -/
def takeSlotResponses (n : SlotId) : Nat → Hw → Hw
  | 0, h => h
  | k + 1, h => takeSlotResponses n k (takeSlotResponse n h)

/-! ### Offers (R90 to R92) -/

/-- The answer to an offer and whether it ends a cancel, by the rows of R90. -/
def answerOffer (n : SlotId) (lock : LockId) (mode : Mode) (h : Hw) : Bool × Bool :=
  let r := h.slot n
  if h.scu.flushing then (false, false)
  else if r.state = .waiting ∧ r.hasOp .acquire ∧ r.onLock lock
      ∧ r.operation.bind (·.mode) = some mode then (true, false)
  else if r.state = .cancelling ∧ r.onLock lock then (false, true)
  else (false, false)

/-- A GRANT taken at the close of observation: the answer is held in flight (R90). -/
def takeGrant (n : SlotId) (lock : LockId) (mode : Mode) (h : Hw) : Hw :=
  let a := answerOffer n lock mode h
  { h with
    rqt :=
      { h.rqt with
        answer :=
          some { slot := n, lock, mode, accept := a.1, cancelToEnd := a.2, failHeld := false } } }

/-- The slot's ACCEPT is in flight (R91). -/
def acceptInFlight (n : SlotId) (h : Hw) : Bool :=
  match h.rqt.answer with
  | some a => a.slot = n && a.accept
  | none => false

/-- The removal of a CANCELLING slot's CANCEL (R86): found, the slot ends with its cancel result; not found, it is
on the lockbus and the slot is to end at its completion, whatever its outcome; handed to the own HTU, it is
never removed and the slot ends at its response. -/
def removeCancel (n : SlotId) (h : Hw) : Hw :=
  if (h.slot n).homedAt h.id then h
  else if slotEntryListed n h then endRecordedCancel n (removeNormal (isSlotEntry n) h)
  else h.setSlot n { h.slot n with ending := true }

/-- The answer in flight applied at an unvoided completion (R91). A slot that has accepted is WAITING until
then. -/
def applyAnswer (a : Answer) (h : Hw) : Hw :=
  if a.accept ∧ (h.slot a.slot).state = .waiting then acquireHeld a.slot a.mode h
  else if a.cancelToEnd ∧ (h.slot a.slot).state = .cancelling ∧ (h.slot a.slot).onLock a.lock then
    removeCancel a.slot h
  else h

/-- The answer in flight discarded at a voided completion, with what was held meanwhile (R91). -/
def discardAnswer (a : Answer) (h : Hw) : Hw :=
  if a.accept ∧ (h.slot a.slot).state = .waiting then
    match (h.slot a.slot).cause, a.failHeld with
    | some c, true => endCancelled a.slot c h
    | some c, false => issueCancel a.slot c h
    | none, true => endAcquire a.slot .homeLost .none h
    | none, false => h
  else h

/-- A GRANT's completion at its target (R91): the record empties, and while flushing the answer is
discarded whatever it was (R158). -/
def settleAnswer (voided : Bool) (h : Hw) : Hw :=
  match h.rqt.answer with
  | none => h
  | some a =>
    let emptied : Hw := { h with rqt := { h.rqt with answer := none } }
    if h.scu.flushing then emptied
    else if voided then discardAnswer a emptied
    else applyAnswer a emptied

/-- An internal offer (R92): responses handed for the slot before it are taken first (log 11), the offer
is decided and applied at once, and the answer handed back as a claim. -/
def internalOffer (n : SlotId) (lock : LockId) (mode : Mode) (h : Hw) : Hw :=
  let caught := takeSlotResponses n h.rqt.responses.length h
  let accepted := (answerOffer n lock mode caught).1
  addClaim (.internalOutcome n lock mode accepted)
    (if accepted then acquireHeld n mode caught else caught)

/-! ### Cancel and wait timer (R79, R89) -/

/-- A client CANCEL or a wait timer expiry acts on the slot's ACQUIRE by the slot's state (R79, R89). -/
def requestCancel (n : SlotId) (c : CancelCause) (h : Hw) : Hw :=
  let r := h.slot n
  let recorded (state : SlotState) := h.setSlot n { r with state, cause := some c, waitTimer := none }
  match r.state with
  | .queuedOut =>
    if slotEntryListed n h then endCancelled n c (removeNormal (isSlotEntry n) h)
    else recorded .onBus
  | .onBus => recorded .onBus
  | .backoff => endCancelled n c h
  | .waiting => if acceptInFlight n h then recorded .waiting else issueCancel n c h
  | .idle | .cancelling | .done => h

/-! ### Operations invoked by other blocks (R93 to R96) -/

/-- An operation on every slot, in ascending slot number (log 9). -/
def forSlots (f : SlotId → Hw → Hw) (h : Hw) : Hw := (List.finRange 32).foldl (fun s n => f n s) h

/-- A HELD entry on home `s`'s locks becomes REVOKED (R93). -/
def revokeHold (s : StationId) (e : Hold) : Hold :=
  if homeOf e.lock = s ∧ e.state = .held then { e with state := .revoked } else e

/-- The slot has a HELD entry on home `s`'s locks. -/
def holdsAt (s : StationId) (n : SlotId) (t : List (Nat × Hold)) : Bool :=
  t.any fun p => p.2.slot = n && homeOf p.2.lock = s && p.2.state = .held

/-- A slot's standing on an evicting home's locks (R93). -/
def evictSlot (s : StationId) (n : SlotId) (h : Hw) : Hw :=
  let r := h.slot n
  if r.aborted ∨ ¬r.homedAt s then h
  else
    match r.state with
    | .waiting => endAcquire n .homeEvicted .none h
    | .cancelling => removeCancel n h
    | .idle | .queuedOut | .onBus | .backoff | .done => h

/-- This station's standing on home `s`'s locks revoked by its EVICT (R93): holds REVOKED, a NOTICE for
each slot that had one, in ascending slot number (R100), then the slots. -/
def revokeByEvict (s : StationId) (h : Hw) : Hw :=
  let before := h.rqt.holds
  let revoked := h.setHolds (before.map fun p => (p.1, revokeHold s p.2))
  forSlots (evictSlot s)
    (forSlots (fun n g => if holdsAt s n before then requestNotice n g else g) revoked)

/-- One hold revoked by a REASSERT answered CONFLICT (R94). -/
def revokeByConflict (n : SlotId) (lock : LockId) (h : Hw) : Hw :=
  match findHold n lock h.rqt.holds with
  | none => h
  | some e =>
    if e.state = .held then
      requestNotice n (h.setHolds (updateHold n lock (Hold.become .revoked e.mode) h.rqt.holds))
    else h

/-- A slot's wait on a lost or departed home's locks fails (R95). -/
def failSlot (s : StationId) (n : SlotId) (h : Hw) : Hw :=
  let r := h.slot n
  if r.aborted ∨ ¬r.homedAt s then h
  else
    match r.state with
    | .waiting =>
      if acceptInFlight n h then
        { h with rqt := { h.rqt with answer := h.rqt.answer.map fun a => { a with failHeld := true } } }
      else endAcquire n .homeLost .none h
    | .cancelling => removeCancel n h
    | .idle | .queuedOut | .onBus | .backoff | .done => h

/-- The waits on home `s`'s locks fail; holds are kept (R95). -/
def failWaits (s : StationId) (h : Hw) : Hw := forSlots (failSlot s) h

/-- A slot's wait on a rejoined home's locks is issued again (R96). -/
def reissueSlot (s : StationId) (n : SlotId) (h : Hw) : Hw :=
  let r := h.slot n
  if r.aborted ∨ ¬r.homedAt s then h
  else
    match r.state with
    | .waiting => issueOperation n h
    | .cancelling => removeCancel n h
    | .idle | .queuedOut | .onBus | .backoff | .done => h

/-- The waits on home `s`'s locks are issued again (R96). -/
def reissueWaits (s : StationId) (h : Hw) : Hw := forSlots (reissueSlot s) h

/-! ### Outcomes of a REASSERT (R144, R159) -/

/-- The answer to a lock REASSERT: the count falls, CONFLICT revokes the hold, and the walker acts. -/
def lockReassertAnswered (t : Transaction) (r : Response) (h : Hw) : Hw :=
  let counted := lowerOutstanding 1 h
  walkerAct
    (match r with
     | .conflict => revokeByConflict t.slot t.lock counted
     | .granted | .queued | .busy | .refused _ | .done | .stale | .notWaiting | .accept | .decline =>
       counted)

/-- The answer to a closing REASSERT: DONE or STALE finishes the home; CONFLICT, which no home drives for
it, leaves the home unfinished and only the count falls (log 15). -/
def closingReassertAnswered (t : Transaction) (r : Response) (h : Hw) : Hw :=
  match r with
  | .done | .stale => walkerFinish (homeOf t.lock) h
  | .granted | .queued | .busy | .refused _ | .notWaiting | .accept | .decline | .conflict =>
    walkerAct (lowerOutstanding 1 h)

/-- A voided REASSERT: kept at the head, or given up while flushing, a closing one then returning the phase
to SENDING (R40, R144, R159). -/
def reassertVoid (t : Transaction) (h : Hw) : Hw :=
  if h.scu.flushing then
    let counted := lowerOutstanding 1 h
    if t.endFlag then
      { counted with rqt := { counted.rqt with phase := counted.rqt.phase.map fun _ => .sending } }
    else counted
  else returnPriority t h

/-- The outcome of a walker REASSERT (R144, R159). -/
def reassertOutcome (t : Transaction) (o : BusOutcome) (h : Hw) : Hw :=
  match o with
  | .void => reassertVoid t h
  | .absent => walkerDrop (homeOf t.lock) h
  | .answered r => if t.endFlag then closingReassertAnswered t r h else lockReassertAnswered t r h
  | .complete => h

end Sys2Proof.Machine
end

