-- ==== Sys2Proof/Machine/Home.lean ====
section
/-! DEFINITION. The Home Table Unit's operations: offers, evaluation, decisions, purges, the awaited set and
the taking of claims (chapters 1, 3 and section 7.3). -/

namespace Sys2Proof.Machine

/-! ### Offers and their delivery (R11, R14 to R17) -/

/-- The holder entry of a client on a lock. -/
def findHolder (i : LockIndex) (s : StationId) (n : SlotId) (t : Htu) : Option Holder :=
  t.holders.find? fun e => e.index = i ∧ e.station = s ∧ e.slot = n

/-- The OFFERED holder entry of a client on a lock. -/
def isOfferTo (i : LockIndex) (s : StationId) (n : SlotId) (e : Holder) : Bool :=
  e.index = i && e.station = s && e.slot = n && e.state = .offered

/-- The OFFERED entry of a waiter (R11). -/
def offeredEntry (w : Waiter) (posted : Option Bool) : Holder :=
  { index := w.index, station := w.station, slot := w.slot, mode := w.mode, state := .offered, posted }

/-- The GRANT of an offer (R11). -/
def grantOf (own : StationId) (w : Waiter) : Transaction :=
  { kind := .grant, mode := w.mode, lock := lockAt own w.index, target := w.station,
    targetSlot := w.slot }

/-- The waiter moved from the pool to the holder table (R11). -/
def Htu.moveToOffered (w : Waiter) (posted : Option Bool) (t : Htu) : Htu :=
  { t with holders := t.holders ++ [offeredEntry w posted], waiters := t.waiters.erase w }

/-- A waiter offered: to another station its GRANT is posted or put into the backlog (R14), to an own slot
the offer is delivered internally (R17). -/
def offer (w : Waiter) (h : Hw) : Hw :=
  if w.station = h.id then
    internalOffer w.slot (lockAt h.id w.index) w.mode (h.setHtu (h.htu.moveToOffered w none))
  else if h.htu.posted < Config.postedLimit then
    placePriority (grantOf h.id w)
      (h.setHtu { h.htu.moveToOffered w (some true) with posted := h.htu.posted + 1 })
  else
    h.setHtu { h.htu.moveToOffered w (some false) with backlog := h.htu.backlog ++ [w] }

/-- The oldest backlog offer posted, when fewer than 8 GRANTs are (R14, R15). -/
def refillOne (h : Hw) : Hw :=
  match h.htu.backlog with
  | [] => h
  | w :: rest =>
    if h.htu.posted < Config.postedLimit then
      placePriority (grantOf h.id w)
        (h.setHtu
          { h.htu with
            backlog := rest
            posted := h.htu.posted + 1
            holders :=
              h.htu.holders.map fun e =>
                if isOfferTo w.index w.station w.slot e then { e with posted := some true } else e })
    else h

/-- Offers posted until 8 GRANTs are posted or the backlog is empty (R21, step 2). -/
def refill : Nat → Hw → Hw
  | 0, h => h
  | k + 1, h => refill k (refillOne h)

/-- A posted GRANT leaves: the posted count falls, and unless a purge is in progress the oldest backlog
offer is posted (R15). -/
def departGrant (h : Hw) : Hw :=
  let fallen := h.setHtu { h.htu with posted := h.htu.posted - 1 }
  if h.htu.purge.isSome then fallen else refillOne fallen

/-- The offer of a removed OFFERED entry withdrawn (R16). -/
def withdrawOffer (e : Holder) (h : Hw) : Hw :=
  let key := isGrantTo e.station e.slot (lockAt h.id e.index)
  match e.posted with
  | some true =>
    if h.lbc.priority.any key then departGrant (removePriority key h) else h
  | some false =>
    h.setHtu
      { h.htu with
        backlog :=
          h.htu.backlog.filter fun w =>
            ¬(w.index = e.index ∧ w.station = e.station ∧ w.slot = e.slot) }
  | none => h

/-- The offers of the OFFERED entries among some removed entries withdrawn, in table order. -/
def withdrawOffers (es : List Holder) (h : Hw) : Hw :=
  (es.filter (·.state = .offered)).foldl (fun g e => withdrawOffer e g) h

/-! ### Evaluation (R9 to R13) -/

/-- The lock leaves the stalled-lock list (R12). -/
def unstall (i : LockIndex) (h : Hw) : Hw :=
  h.setHtu { h.htu with stalled := h.htu.stalled.erase i }

/-- The lock is appended to the stalled-lock list unless it is in it (R12). -/
def stall (i : LockIndex) (h : Hw) : Hw :=
  if i ∈ h.htu.stalled then h else h.setHtu { h.htu with stalled := h.htu.stalled ++ [i] }

/-- Offers from the head of a lock's queue, while it is compatible and a holder entry is free (R10, R12);
the fuel bounds the length of the queue. -/
def evaluateFrom (i : LockIndex) : Nat → Hw → Hw
  | 0, h => unstall i h
  | k + 1, h =>
    match headWaiter i h.htu with
    | none => unstall i h
    | some w =>
      if compatible w.mode (holdersOf i h.htu) then
        if holderFree h.htu then evaluateFrom i k (offer w h) else stall i h
      else unstall i h

/-- Evaluation of a lock (R10). -/
def evaluate (i : LockIndex) (h : Hw) : Hw := evaluateFrom i h.htu.waiters.length h

/-- The stalled-lock pass (R13). -/
def stalledPass (h : Hw) : Hw :=
  h.htu.stalled.foldl (fun g i => if holderFree g.htu then evaluate i g else g) h

/-- The changed locks evaluated in ascending order, then the stalled-lock pass, in SERVING (R54, steps 4
and 5); a claim that changed no lock causes none (R9). -/
def evaluateChanged (touched : List LockIndex) (h : Hw) : Hw :=
  if h.home = .serving ∧ touched ≠ [] then
    stalledPass ((ascending touched).foldl (fun g i => evaluate i g) h)
  else h

/-! ### Decisions (R56 to R62, R138) -/

/-- The supersede step's entries of an ACQUIRE (R56). -/
def superseded (r : Request) (t : Htu) : Changes :=
  { dropWaiters := t.waiters.filter fun w => w.station = r.station ∧ w.slot = r.slot
    dropHolders :=
      t.holders.filter fun e =>
        e.station = r.station ∧ e.slot = r.slot ∧ (e.state = .offered ∨ e.index = r.index) }

/-- The tables without the entries a decision removes. -/
def Htu.without (c : Changes) (t : Htu) : Htu :=
  { t with
    waiters := t.waiters.filter (· ∉ c.dropWaiters)
    holders := t.holders.filter (· ∉ c.dropHolders) }

/-- The HELD entry a request asks for. -/
def heldEntry (r : Request) : Holder :=
  { index := r.index, station := r.station, slot := r.slot, mode := r.mode, state := .held,
    posted := none }

/-- The waiter entry a request asks for. -/
def waiterEntry (r : Request) : Waiter :=
  { index := r.index, station := r.station, slot := r.slot, mode := r.mode }

/-- An ACQUIRE decided, after the supersede step (R56 to R58). -/
def decideAcquire (hs : HomeState) (t : Htu) (r : Request) : Response × Changes :=
  let s := superseded r t
  let u := t.without s
  let grantable := (headWaiter r.index u).isNone ∧ compatible r.mode (holdersOf r.index u)
  if hs = .rebuilding then (.refused .rebuilding, s)
  else if grantable ∧ holderFree u then (.granted, { s with addHolder := some (heldEntry r) })
  else if r.tryFlag then (.busy, s)
  else if grantable then (.refused .holdFull, s)
  else if waiterFree u then (.queued, { s with addWaiter := some (waiterEntry r) })
  else (.refused .waitFull, s)

/-- The HELD entry of the requester on the lock. -/
def heldOf (t : Htu) (r : Request) : Option Holder :=
  t.holders.find? fun e =>
    e.index = r.index ∧ e.station = r.station ∧ e.slot = r.slot ∧ e.state = .held

/-- A RELEASE decided (R60). -/
def decideRelease (t : Htu) (r : Request) : Response × Changes :=
  match heldOf t r with
  | some e => (.done, { dropHolders := [e] })
  | none => (.stale, {})

/-- A DOWNGRADE decided (R61). -/
def decideDowngrade (hs : HomeState) (t : Htu) (r : Request) : Response × Changes :=
  if hs = .rebuilding then (.refused .rebuilding, {})
  else
    match heldOf t r with
    | some e => if e.mode = .exclusive then (.done, { share := some e }) else (.done, {})
    | none => (.stale, {})

/-- A CANCEL decided (R62). -/
def decideCancel (t : Htu) (r : Request) : Response × Changes :=
  match t.waiters.find? fun w => w.index = r.index ∧ w.station = r.station ∧ w.slot = r.slot with
  | some w => (.done, { dropWaiters := [w] })
  | none =>
    match t.holders.find? (isOfferTo r.index r.station r.slot) with
    | some e => (.done, { dropHolders := [e] })
    | none => (.notWaiting, {})

/-- A REASSERT decided (R138). -/
def decideReassert (hs : HomeState) (t : Htu) (r : Request) : Response × Changes :=
  if hs ≠ .rebuilding then (.stale, {})
  else if ¬t.awaited.getLsbD r.station.val then (.stale, {})
  else if r.endFlag then (.done, { unawait := some r.station })
  else if (findHolder r.index r.station r.slot t).isSome then (.done, {})
  else if compatible r.mode (holdersOf r.index t) ∧ holderFree t then
    (.done, { addHolder := some (heldEntry r) })
  else (.conflict, {})

/-- A request decided by its kind. The last row is no lock transaction and is never asked. -/
def decideRequest (hs : HomeState) (t : Htu) (r : Request) : Response × Changes :=
  match r.kind with
  | .acquire => decideAcquire hs t r
  | .release => decideRelease t r
  | .downgrade => decideDowngrade hs t r
  | .cancel => decideCancel t r
  | .reassert => decideReassert hs t r
  | .grant | .beacon | .join | .leave | .purge | .evict => (.stale, {})

/-! ### Applying a decision (R54) -/

/-- The locks a decision's changes touch (R9, R51). -/
def Changes.touched (c : Changes) : List LockIndex :=
  c.dropWaiters.map (·.index) ++ c.dropHolders.map (·.index) ++ c.addHolder.toList.map (·.index)
    ++ c.addWaiter.toList.map (·.index) ++ c.share.toList.map (·.index)

/-- The changes of a decision made in the tables (R54, steps 1 and 2). -/
def Htu.change (c : Changes) (t : Htu) : Htu :=
  let u := t.without c
  { u with
    holders :=
      (match c.share with
       | some e => u.holders.map fun x => if x = e then { x with mode := .shared } else x
       | none => u.holders) ++ c.addHolder.toList
    waiters := u.waiters ++ c.addWaiter.toList }

/-- The awaited set without station `s`; when that empties it in REBUILDING, the timer stops, the home goes
SERVING and the station ONLINE, and ONLINE is raised (R137). At a loss, a LEAVE or a JOIN it is made before the
delivery to the RQT, so ONLINE is raised before the RESULTs of the waits that end: the model's choice (log 8). -/
def unawait (s : StationId) (h : Hw) : Hw :=
  if h.home = .rebuilding ∧ h.htu.awaited.getLsbD s.val then
    let left := h.htu.awaited &&& ~~~(stationBit s)
    if left = 0 then
      raiseEvent .online
        { h with
          htu := { h.htu with awaited := 0, rebuildTimer := none }
          scu := { h.scu with station := .online } }
    else h.setHtu { h.htu with awaited := left }
  else h

/-- A station leaves the awaited set, where a decision says so (R138). -/
def unawaitOption (s : Option StationId) (h : Hw) : Hw :=
  match s with
  | some p => unawait p h
  | none => h

/-- A decision applied in the order of R54; `hand` hands the response of a self-homed request. -/
def applyChanges (c : Changes) (hand : Hw → Hw) (h : Hw) : Hw :=
  let changed := hand (unawaitOption c.unawait (h.setHtu (h.htu.change c)))
  evaluateChanged c.touched (withdrawOffers c.dropHolders changed)

/-- A response handed to the RQT (R52). -/
def handResponse (p : SelfResponse) (h : Hw) : Hw :=
  { h with rqt := { h.rqt with responses := h.rqt.responses ++ [p] } }

/-- A self-homed request decided, applied at once, and answered (R52). -/
def serveSelfRequest (r : Request) (h : Hw) : Hw :=
  let d := decideRequest h.home h.htu r
  applyChanges d.2 (handResponse { slot := r.slot, kind := r.kind, response := d.1 }) h

/-- The request the open transaction carries, as its responder's HTU reads it (R51). -/
def busRequest (h : Hw) : Option Request :=
  match h.lbc.record.bind (·.words) with
  | none => none
  | some w =>
    (readRequest w.1 w.2).map fun t =>
      { kind := t.kind, station := sourceField w.1, slot := t.slot, index := indexOf t.lock,
        mode := t.mode, tryFlag := t.tryFlag, endFlag := t.endFlag }

/-- This station's LSTALL set or released (R34). -/
def setStall (b : Bool) (h : Hw) : Hw :=
  { h with lbc := { h.lbc with record := h.lbc.record.map fun r => { r with lstall := b } } }

/-- The lock transaction decided (R51): LSTALL released and the decision recorded. -/
def recordDecision (r : Request) (h : Hw) : Hw :=
  let d := decideRequest h.home h.htu r
  setStall false
    (h.setHtu { h.htu with decision := some { request := r, response := d.1, changes := d.2 } })

/-- The lock transaction that engaged a free home at the start of its observation phase decided (R51). -/
def takeEngaged (h : Hw) : Hw :=
  match busRequest h with
  | none => h
  | some r =>
    if h.htu.engaged = .transaction ∧ h.htu.decision = none ∧ r.kind.isLock
        ∧ h.lbc.record.any (fun x => x.role = .responder && x.phase = .observing) then
      recordDecision r h
    else h

/-- The lock transaction that waited taken as a claim (R51, R53): it engages the home and is decided. -/
def takeTransaction (h : Hw) : Hw := takeEngaged (h.setHtu (h.htu.engage .transaction))

/-! ### GRANT outcomes (R64 to R70) -/

/-- A GRANT outcome acts on the OFFERED entry it matches, and on nothing else (R65, R66, R68). -/
def applyGrantOutcome (i : LockIndex) (s : StationId) (n : SlotId) (accepted : Bool) (h : Hw) : Hw :=
  if h.htu.holders.any (isOfferTo i s n) then
    evaluateChanged [i]
      (h.setHtu
        { h.htu with
          holders :=
            if accepted then
              h.htu.holders.map fun e =>
                if isOfferTo i s n e then { e with state := .held, posted := none } else e
            else h.htu.holders.filter fun e => !isOfferTo i s n e })
  else h

/-! ### Purge (R18 to R22) -/

/-- A purge of station `s` started and its walk made (R19): entries removed, their offers withdrawn, the
removed count and the touched-lock set kept for its end. The walk is one step (log 10). -/
def startPurge (s : StationId) (evict rebuild : Bool) (rest : List StationId) (h : Hw) : Hw :=
  let ws := h.htu.waiters.filter (·.station = s)
  let es := h.htu.holders.filter (·.station = s)
  withdrawOffers es
    (h.setHtu
      { h.htu.engage .purge with
        waiters := h.htu.waiters.filter (·.station ≠ s)
        holders := h.htu.holders.filter (·.station ≠ s)
        purge :=
          some
            { station := s, evict, removed := ws.length + es.length
              touched := ascending (ws.map (·.index) ++ es.map (·.index)), rebuild, rest } })

/-- The EVICT of a purge that removed an entry, unless one naming the station is already listed
(R21, R22). -/
def queueEvict (p : Purge) (h : Hw) : Hw :=
  if p.evict ∧ 0 < p.removed ∧ ¬h.lbc.priority.any (isEvictOf p.station) then
    placePriority { kind := .evict, target := p.station } h
  else h

/-- The touched locks of a purge evaluated at its end, in SERVING, then the stalled-lock pass (R21,
step 3). -/
def evaluateTouched (touched : List LockIndex) (h : Hw) : Hw :=
  if h.home = .serving then stalledPass (touched.foldl (fun g i => evaluate i g) h) else h

/-- After the last purge of a rebuild expiry the home goes SERVING and the station ONLINE (R139), unless a
LEAVE command has taken it to LEAVING meanwhile (log 24). -/
def endRebuild (h : Hw) : Hw :=
  if h.scu.station = .rebuilding then
    raiseEvent .online
      { h with
        htu := { h.htu with rebuildTimer := none }
        scu := { h.scu with station := .online } }
  else h

/-- What follows a purge of a rebuild expiry: REBUILD_EVICTED, then the next purge or the end (R139). -/
def continueRebuild (p : Purge) (h : Hw) : Hw :=
  if p.rebuild then
    let raised := raiseEvent (.rebuildEvicted p.station) h
    match p.rest with
    | next :: rest => startPurge next true true rest raised
    | [] => endRebuild raised
  else h

/-- The end of a purge (R21, R139). The answer to an internal offer made here arrives after it (R69), at a home
that is free then; the evaluation does not look at the purge. -/
def endPurge (p : Purge) (h : Hw) : Hw :=
  let refilled := refill Config.postedLimit (queueEvict p h)
  continueRebuild p
    (evaluateTouched p.touched (refilled.setHtu { refilled.htu with purge := none, engaged := .free }))

/-- A purge cause taken: discarded in INACTIVE (R18), else a purge. -/
def takePurgeCause (s : StationId) (evict : Bool) (h : Hw) : Hw :=
  if h.home = .inactive then h else startPurge s evict false [] h

/-- A purge cause delivered: discarded at once by an INACTIVE home (R4), else a claim (R18). -/
def deliverPurgeCause (s : StationId) (evict : Bool) (h : Hw) : Hw :=
  if h.home = .inactive then h else addClaim (.purgeCause s evict) h

/-- A rebuild timer expiry taken (R139). -/
def takeRebuildExpiry (h : Hw) : Hw :=
  if h.home = .rebuilding then
    match stationsOf h.htu.awaited with
    | [] => h
    | s :: rest => startPurge s true true rest (h.setHtu { h.htu with awaited := 0 })
  else h

/-! ### Taking claims (R23, R53) -/

/-- A claim taken by a free home. -/
def takeClaim (c : Claim) (h : Hw) : Hw :=
  match c with
  | .lockTransaction => takeTransaction h
  | .selfRequest r => serveSelfRequest r h
  | .grantOutcome s n l _ o => applyGrantOutcome (indexOf l) s n (o = .answered .accept) h
  | .internalOutcome n l _ a => applyGrantOutcome (indexOf l) h.id n a h
  | .purgeCause s e => takePurgeCause s e h
  | .rebuildExpiry => takeRebuildExpiry h

/-- The oldest claim that has reached a free home taken, where it is of the kind asked for (R53). -/
def takeArrived (p : Claim → Bool) (h : Hw) : Hw :=
  match h.htu.engaged, h.htu.arriving with
  | .free, c :: rest => if p c then takeClaim c (h.setHtu { h.htu with arriving := rest }) else h
  | _, _ => h

/-- The `k` oldest claims that have reached a free home taken, one after another, until one engages it (R53). -/
def takeArrivals : Nat → Hw → Hw
  | 0, h => h
  | k + 1, h => takeArrivals k (takeArrived (fun _ => true) h)

/-- Every claim that has reached a free home taken, until none is left or one engages the home: each taking makes
at most one waiter and hands one response, each waiter makes one answer, and each response one CANCEL, so the
count bounds them all. -/
def settleArrivals (h : Hw) : Hw :=
  takeArrivals (3 * h.htu.arriving.length + h.htu.waiters.length + h.rqt.responses.length) h

/-- A home that is free takes the claim at the head of its list (R53). -/
def takeHead (h : Hw) : Hw :=
  match h.htu.engaged, h.htu.claims with
  | .free, c :: rest => takeClaim c (h.setHtu { h.htu with claims := rest })
  | _, _ => h

/-- The `k` claims of the list taken, one after another, until one engages the home or the list is empty (R53). -/
def takeWaiting : Nat → Hw → Hw
  | 0, h => h
  | k + 1, h => takeWaiting k (takeHead h)

/-- The end of an engagement by a transaction on the lockbus (R23): the home is free, what is left to do for the
transaction is done, and the home takes the claims that waited (R53). -/
def endEngagement (work : Hw → Hw) (h : Hw) : Hw :=
  takeWaiting h.htu.claims.length (work (h.setHtu h.htu.freed))

end Sys2Proof.Machine
end

