-- ==== Sys2Proof/Machine/Control.lean ====
section
/-! DEFINITION. The Membership Unit's and the Station Control Unit's operations: sightings and loss
(chapter 6), joining, leaving and the resets (chapter 7), the client flush (chapter 8). -/

namespace Sys2Proof.Machine

/-! ### Sightings and loss (R114, R120, R126, R127) -/

/-- A silence timer's value after a sighting: started from zero in the present states, stopped in LISTENING
and JOINING (R113). -/
def sightedTimer (s : StationState) : Option Nat := if s.present then some 0 else none

/-- Entry to DUPLICATE (R126, R127): every timer of the MBU and the listen window stopped, a listed JOIN
removed (R133), DUPLICATE_ID raised; the table is kept. -/
def enterDuplicate (h : Hw) : Hw :=
  raiseEvent .duplicateId
    (removeNormal (·.kind = .join)
      { h with
        scu := { h.scu with station := .duplicate, listenTimer := none }
        mbu :=
          { h.mbu.mapMembers (fun _ m => { m with timer := none }) with beaconTimer := none } })

/-- The winner of a completed transaction taken as a sighting (R114, R126, R128). -/
def sighting (winner : StationId) (initiator : Bool) (h : Hw) : Hw :=
  if winner ≠ h.id then
    h.setMember winner { state := .present, timer := sightedTimer h.scu.station }
  else if initiator then { h with mbu := { h.mbu with wonMark := true } }
  else
    match h.scu.station with
    | .listening | .joining => enterDuplicate h
    | .offline | .rebuilding | .online | .leaving | .duplicate => h

/-- An unvoided LEAVE of a peer makes its record ABSENT (R122). -/
def peerAbsent (s : StationId) (h : Hw) : Hw :=
  if s = h.id then h else h.setMember s { state := .absent, timer := none }

/-- A silence timer is held by the peer's own transaction or by a stall (R118). -/
def silenceHeld (p : StationId) (h : Hw) : Bool :=
  match h.lbc.record with
  | none => false
  | some r => r.winner = p || (r.phase = .observing && (r.lstall || r.stallSeen))

/-- The expiry of a peer's silence timer and the sighting at the completion of the peer's transaction come
together: the completion is due (R121, log 27). -/
def comesTogether (p : StationId) (h : Hw) : Bool :=
  match h.lbc.record with
  | none => false
  | some r => r.winner = p && r.phase = .completion

/-- The loss limit: loss threshold × P (R118). -/
def lossLimit (h : Hw) : Nat := h.scu.lossThreshold.toNat * h.period

/-- Two deliveries with no order between them, taken in the order the command's operand says (log 8). -/
def inOrder (eventFirst : Bool) (event rqt : Hw → Hw) (h : Hw) : Hw :=
  if eventFirst then rqt (event h) else event (rqt h)

/-- A peer declared LOST (R120). The operand orders PEER_LOST and the RESULTs of the waits that fail; an ONLINE raised
at the same loss (R137) comes before both, whatever it says: the model's choice (R98, log 8). -/
def declareLost (p : StationId) (eventFirst : Bool) (h : Hw) : Hw :=
  inOrder eventFirst (raiseEvent (.peerLost p)) (failWaits p)
    (unawait p (deliverPurgeCause p true (h.setMember p { state := .lost, timer := none })))

/-! ### Client flush (R155 to R162) -/

/-- A self-homed request of the slot is outstanding (R156). -/
def selfOutstanding (own : StationId) (r : SlotRecord) : Bool :=
  (r.state = .onBus || r.state = .cancelling) && r.homedAt own

/-- A slot aborted at the start of a flush (R156). -/
def abortSlot (own : StationId) (r : SlotRecord) : SlotRecord :=
  if r.state = .idle then r
  else
    { r with
      aborted := true, waitTimer := none, backoffTimer := none, cause := none, ending := false
      owed := r.owed || selfOutstanding own r }

/-- Every slot's record altered. -/
def Rqt.mapSlots (f : SlotRecord → SlotRecord) (q : Rqt) : Rqt := { q with slots := q.slots.map f }

/-- The start of a flush, one operation in seven steps (R155). -/
def startFlush (h : Hw) : Hw :=
  let reasserts := h.lbc.priority.countP isLockReassert
  placePriority { kind := .purge }
    (removePriority isLockReassert
      (removeNormal (·.kind.isSlot)
        { h with
          scu := { h.scu with flushing := true }
          cqu := h.cqu.flush
          rqt :=
            { h.rqt.mapSlots (abortSlot h.id) with
              holds := [], outstanding := h.rqt.outstanding - reasserts } }))

/-- A flush started where it may be: REBUILDING or ONLINE with the flag clear (R154). -/
def mayFlush (h : Hw) : Bool :=
  (h.scu.station = .rebuilding || h.scu.station = .online) && !h.scu.flushing

/-- An aborted slot made IDLE at the end of a flush; its owed-response mark stays (R162). -/
def endAbort (r : SlotRecord) : SlotRecord :=
  if r.aborted then .idleWith r.refusal r.owed else r

/-- The end of a flush, at the own PURGE's unvoided completion (R162). -/
def endFlush (h : Hw) : Hw :=
  let cleared :=
    walkerAct
      { h with
        scu := { h.scu with flushing := false }
        rqt := h.rqt.mapSlots endAbort }
  let raised := raiseEvent .flushDone cleared
  if raised.scu.station = .leaving then placeNormal { kind := .leave } raised else raised

/-! ### Own JOIN and LEAVE (R119, R135, R149) -/

/-- The MBU at own JOIN completion (R119): stations of the set made PRESENT, the silence timers of PRESENT
peers and the beacon timer started, the won-arbitration mark set. -/
def joinMembership (present : BitVec 16) (h : Hw) : Hw :=
  { h with
    mbu :=
      { h.mbu.mapMembers (fun s m =>
          if s = h.id then m
          else if present.getLsbD s.val ∨ m.state = .present then
            { state := .present, timer := some 0 }
          else m) with
        beaconTimer := some h.period
        wonMark := true } }

/-- The home's content as it leaves INACTIVE (R3): its tables and lists empty, the awaited set and the rebuild timer
as given. -/
def Htu.entered (awaited : BitVec 16) (timer : Option Nat) (t : Htu) : Htu :=
  { t with
    holders := [], waiters := [], backlog := [], stalled := [], awaited, rebuildTimer := timer }

/-- The station's new state at the unvoided completion of its own JOIN (R135), its home entered (R3). -/
def ownJoin (present : BitVec 16) (h : Hw) : Hw :=
  if h.scu.station ≠ .joining then h
  else if present.getLsbD h.id.val then enterDuplicate h
  else if present = 0 then
    raiseEvent .online
      (joinMembership present
        { h with scu := { h.scu with station := .online }, htu := h.htu.entered 0 none })
  else
    raiseEvent .joined
      (joinMembership present
        { h with
          scu := { h.scu with station := .rebuilding }
          htu := h.htu.entered present (some (Config.rebuildPeriods * h.period)) })

/-- A slot at own LEAVE completion: IDLE, the refusal code unchanged (R97, R164). -/
def leaveSlot (r : SlotRecord) : SlotRecord := .idleWith r.refusal false

/-- The station goes OFFLINE at the unvoided completion of its own LEAVE (R149). -/
def ownLeave (h : Hw) : Hw :=
  raiseEvent .left
    { h with
      scu :=
        { h.scu with station := .offline, flushing := false, frozen := false, listenTimer := none }
      lbc := .reset
      htu := .reset
      mbu := .reset
      rqt := { Rqt.reset with slots := h.rqt.slots.map leaveSlot, waitLimits := h.rqt.waitLimits } }

/-! ### Resets (R151, R152) -/

/-- Every block at its station reset value, with the command status a RESET command or a pin leaves
(R151, R153); configuration fields, station ID and beacon period are kept. -/
def stationReset (status : CommandStatus) (h : Hw) : Hw :=
  { scu :=
      { h.scu with
        station := .offline, flushing := false, frozen := false, listenTimer := none
        commandStatus := status, configStatus := .none }
    lbc := .reset, htu := .reset, rqt := .reset, mbu := .reset, cqu := .reset
    port := h.port }

/-- Power-on reset (R152): a station reset, the configuration defaults, and the straps sampled. -/
def powerOnReset (id : StationId) (bpsel : Fin 4) (h : Hw) : Hw :=
  { stationReset .none h with
    scu := .reset id bpsel
    port := { h.port with porAsserted := true } }

end Sys2Proof.Machine
end

