-- ==== Sys2Proof/Machine/Bus.lean ====
section
/-! DEFINITION. The Lockbus Controller's operations: what this station drives, arbitration, the phases, the
settling of a completion and its deliveries (chapter 2). -/

namespace Sys2Proof.Machine

/-! ### Driving and reading the wired-OR lines (R26, R27, R33 to R37) -/

/-- No line asserted. -/
def idleLines : Lines :=
  { larb := 0, ldat := 0, lpar := 0, lrsp := false, lvoid := false, lstall := false }

/-- A wired-OR line reads asserted while any station asserts it (R26). -/
def wired (a b : Lines) : Lines :=
  { larb := a.larb ||| b.larb, ldat := a.ldat ||| b.ldat, lpar := a.lpar ||| b.lpar
    lrsp := a.lrsp || b.lrsp, lvoid := a.lvoid || b.lvoid, lstall := a.lstall || b.lstall }

/-- The station may assert LVOID: present, or JOINING in its own JOIN (R27). -/
def mayVoid (s : StationState) (r : TxRecord) : Bool :=
  s.present || (s = .joining && r.role = .initiator)

/-- The LVOID this station drives: from its own detection of an error to the end of completion (R35). -/
def drivesVoid (s : StationState) (r : TxRecord) : Bool := r.error && mayVoid s r

/-- The winner holds its LARB line until completion begins (R31). -/
def drivesLarb (own : StationId) (r : TxRecord) : BitVec 16 :=
  if r.role = .initiator then stationBit own else 0

/-- The request words of the entry this station carries, with their parity (R32, R166); zero where it
carries none. -/
def requestLines (h : Hw) (r : TxRecord) (second : Bool) : Lines :=
  let w : Word :=
    match r.entry with
    | some t => if second then requestWord1 t else requestWord0 h.id t
    | none => 0
  { idleLines with
    larb := drivesLarb h.id r, ldat := w, lpar := parityOf w, lvoid := drivesVoid h.scu.station r }

/-- The presence bit of a station in a present state (R33). -/
def presenceBit (h : Hw) : BitVec 16 := if h.scu.station.present then stationBit h.id else 0

/-- What this station drives in the observation phase (R33, R34). -/
def observationLines (h : Hw) (r : TxRecord) : Lines :=
  { idleLines with
    larb := drivesLarb h.id r
    ldat := BitVec.zeroExtend 32 (presenceBit h)
    lrsp := r.lrsp, lstall := r.lstall, lvoid := drivesVoid h.scu.station r }

/-- The response this station drives as responder: its home's decision, or the answer in flight (R37). -/
def ownResponse (h : Hw) : Option Response :=
  match h.htu.decision, h.rqt.answer with
  | some d, _ => some d.response
  | none, some a => some (if a.accept then .accept else .decline)
  | none, none => none

/-- What this station drives in the response phase (R37, R166). -/
def responseLines (h : Hw) (r : TxRecord) : Lines :=
  let base : Lines :=
    { idleLines with
      larb := drivesLarb h.id r, lrsp := r.lrsp, lvoid := drivesVoid h.scu.station r }
  match r.role, ownResponse h with
  | .responder, some x => { base with ldat := responseWord x, lpar := parityOf (responseWord x) }
  | _, _ => base

/-- What this station drives in the completion phase (R41). -/
def completionLines (h : Hw) (r : TxRecord) : Lines :=
  { idleLines with lvoid := drivesVoid h.scu.station r }

/-- The lockbus lines this station drives for its open transaction, by the phase due (R26, R50); none
where no record is open. In the request phase these are the lines of the first word. -/
def drivenLines (h : Hw) : Lines :=
  match h.lbc.record with
  | none => idleLines
  | some r =>
    match r.phase with
    | .request => requestLines h r false
    | .observation | .observing => observationLines h r
    | .response => responseLines h r
    | .completion => completionLines h r

/-! ### Arbitration (R28 to R31) -/

/-- An entry of the priority list is admissible (R28). -/
def admissible (h : Hw) (t : Transaction) : Bool := !(t.kind = .grant && h.htu.purge.isSome)

/-- The candidate of a priority round: the oldest admissible entry, none in JOINING (R28). -/
def priorityCandidate (h : Hw) : Option Transaction :=
  if h.scu.station.present then h.lbc.priority.find? (admissible h) else none

/-- The candidate of a normal round: the head of the normal list (R28). -/
def normalCandidate (h : Hw) : Option Transaction :=
  if h.scu.station.present || h.scu.station = .joining then h.lbc.normal.head? else none

/-- The LARB lines of a round: the others' and this station's when it has a candidate (R28). -/
def roundLines (others : BitVec 16) (own : StationId) (c : Option Transaction) : BitVec 16 :=
  if c.isSome then others ||| stationBit own else others

/-- The winner of a round: the first station after the rotation pointer, in cyclic order, whose line is
asserted; the station at the pointer comes last (R29). -/
def winnerAfter (pointer : StationId) (lines : BitVec 16) : Option StationId :=
  ((List.finRange 16).map fun k => pointer + 1 + k).find? fun s => lines.getLsbD s.val

/-- The first entry that a key names taken out of a list. -/
def takeOut (key : Transaction → Bool) (l : List Transaction) : List Transaction := l.eraseP key

/-- The lists after a win: the candidate leaves its list (R31). -/
def leaveList (round : Round) (h : Hw) : Hw :=
  match round with
  | .priority => { h with lbc := { h.lbc with priority := takeOut (admissible h) h.lbc.priority } }
  | .normal => { h with lbc := { h.lbc with normal := h.lbc.normal.tail } }

/-- The record opened at a win (R31). -/
def openedRecord (winner : StationId) (round : Round) (entry : Option Transaction) : TxRecord :=
  { winner, round, role := if entry.isSome then .initiator else .observer, entry
    words := none, presence := none, responded := none, response := none, voidSeen := false
    phase := .request, error := false, lrsp := false, lstall := false, stallSeen := false }

/-- The owners told of a win: a QUEUED_OUT slot goes ON_BUS (R80), and the own GRANT engages the home
(R23, R31). -/
def tellWin (t : Transaction) (h : Hw) : Hw :=
  if t.kind.isSlot then
    if (h.slot t.slot).state = .queuedOut then
      h.setSlot t.slot { h.slot t.slot with state := .onBus }
    else h
  else if t.kind = .grant then h.setHtu (h.htu.engage .grant)
  else h

/-- An arbitration with a winner (R30, R31). -/
def wonBy (winner : StationId) (round : Round) (candidate : Option Transaction) (h : Hw) : Hw :=
  let entry := if winner = h.id then candidate else none
  let left : Hw :=
    match entry with
    | some t => tellWin t (leaveList round h)
    | none => h
  { left with
    lbc := { left.lbc with pointer := winner, record := some (openedRecord winner round entry) } }

/-- The rounds of an arbitration (R29): a priority round, then if no line is asserted a normal round; without a
winner nothing changes. -/
def holdRounds (priorityLines normalLines : BitVec 16) (h : Hw) : Hw :=
  match winnerAfter h.lbc.pointer (roundLines priorityLines h.id (priorityCandidate h)) with
  | some w => wonBy w .priority (priorityCandidate h) h
  | none =>
    match winnerAfter h.lbc.pointer (roundLines normalLines h.id (normalCandidate h)) with
    | some w => wonBy w .normal (normalCandidate h) h
    | none => h

/-- An arbitration at an observing station with no open transaction (R27, R29); a free home has taken the claims
that reached it before (R53, log 5). -/
def arbitrate (priorityLines normalLines : BitVec 16) (h : Hw) : Hw :=
  if h.scu.station.observes ∧ h.lbc.record.isNone then
    holdRounds priorityLines normalLines (settleArrivals h)
  else h

/-! ### Reading and checking (R35) -/

/-- The open record replaced. -/
def setRecord (r : TxRecord) (h : Hw) : Hw := { h with lbc := { h.lbc with record := some r } }

/-- The record after a phase in which an error was or was not detected and LVOID was or was not read
(R35). -/
def TxRecord.noteVoid (error lvoid : Bool) (r : TxRecord) : TxRecord :=
  { r with error := r.error || error, voidSeen := r.voidSeen || error || lvoid }

/-- The winner's LARB line reads asserted (R35). -/
def larbHeld (r : TxRecord) (l : Lines) : Bool := l.larb.getLsbD r.winner.val

/-- The request words hold a parity or framing error (R35). -/
def requestError (r : TxRecord) (first second : Lines) : Bool :=
  !(parityEven first.ldat first.lpar) || !(parityEven second.ldat second.lpar)
    || (readRequest first.ldat second.ldat).isNone
    || sourceField first.ldat ≠ r.winner
    || !(larbHeld r first) || !(larbHeld r second)

/-- The request phase (R32). -/
def readRequestPhase (first second : Lines) (h : Hw) : Hw :=
  match h.lbc.record with
  | none => h
  | some r =>
    if r.phase = .request then
      let a := wired first (requestLines h r false)
      let b := wired second (requestLines h r true)
      setRecord
        ({ r with words := some (a.ldat, b.ldat), phase := .observation }.noteVoid
          (requestError r a b) (a.lvoid || b.lvoid)) h
    else h

/-- The transaction the record's words carry, where their kind is defined. -/
def recordRequest (r : TxRecord) : Option Transaction :=
  r.words.bind fun w => readRequest w.1 w.2

/-- This station's part as a responder (R33). -/
inductive Responds where
  | home | target | no
  deriving DecidableEq, Repr

/-- Whether this station responds (R33): not as the winner, and not after an error it has seen. That the winner's LARB
line, released during the request phase beside clean words, counts as such an error is a choice (log 31). -/
def responds (h : Hw) (r : TxRecord) : Responds :=
  match recordRequest r with
  | none => .no
  | some t =>
    if r.error ∨ r.role = .initiator ∨ ¬h.scu.station.present then .no
    else if t.kind.isLock ∧ homeOf t.lock = h.id then .home
    else if t.kind = .grant ∧ t.target = h.id then .target
    else .no

/-- A lock transaction reaches its home (R23, R51): it engages a free home, and waits at an engaged one. -/
def Htu.meetTransaction (t : Htu) : Htu :=
  if t.engaged = .free then t.engage .transaction else { t with claims := t.claims ++ [.lockTransaction] }

/-- The start of the observation phase (R33, R34): the responder asserts LRSP; a home first takes the claims that
had reached it while it was free (R53), and then the transaction reaches it: LSTALL is asserted where the home
cannot take it at once. -/
def startObservation (others : Lines) (h : Hw) : Hw :=
  match h.lbc.record with
  | none => h
  | some r =>
    if r.phase = .observation then
      let l := wired others { idleLines with larb := drivesLarb h.id r }
      let seen :=
        { r with phase := .observing, stallSeen := others.lstall }.noteVoid (!larbHeld r l) others.lvoid
      match responds h r with
      | .home =>
        let g := settleArrivals h
        setRecord { seen with role := .responder, lrsp := true, lstall := g.htu.engaged ≠ .free }
          (g.setHtu g.htu.meetTransaction)
      | .target => setRecord { seen with role := .responder, lrsp := true } h
      | .no => setRecord seen h
    else h

/-- What follows the close (R36): a response phase for a kind that has one and LRSP read asserted. -/
def phaseAfterClose (r : TxRecord) (lrsp : Bool) : BusPhase :=
  match recordRequest r with
  | some t => if t.kind.hasResponse && lrsp then .response else .completion
  | none => .completion

/-- The GRANT naming this station is answered at the close (R90). -/
def answerGrant (r : TxRecord) (h : Hw) : Hw :=
  match recordRequest r with
  | some t =>
    if r.role = .responder ∧ t.kind = .grant then takeGrant t.targetSlot t.lock t.mode h else h
  | none => h

/-- The close of the observation phase (R36). While any LSTALL is asserted the phase stays open and only
LVOID, LARB and LSTALL are noted (R34). A transaction that engaged the home is decided by the close (log 6). -/
def closeObservation (others : Lines) (h : Hw) : Hw :=
  match h.lbc.record with
  | none => h
  | some r =>
    if r.phase = .observing then
      let l := wired others (observationLines h r)
      let seen := { r with stallSeen := others.lstall }.noteVoid (!larbHeld r l) l.lvoid
      if l.lstall then setRecord seen h
      else
        answerGrant r
          (setRecord
            { seen with
              presence := some (l.ldat.setWidth 16), responded := some l.lrsp
              phase := phaseAfterClose r l.lrsp }
            (takeEngaged h))
    else h

/-- The response phase (R37): the word read and checked. -/
def readResponsePhase (others : Lines) (h : Hw) : Hw :=
  match h.lbc.record, h.lbc.record.bind recordRequest with
  | some r, some t =>
    if r.phase = .response then
      let l := wired others (responseLines h r)
      let x := readResponse t.kind l.ldat
      setRecord
        ({ r with response := x, phase := .completion }.noteVoid
          (!(parityEven l.ldat l.lpar) || x.isNone || !l.lrsp || !larbHeld r l) l.lvoid) h
    else h
  | _, _ => h

/-! ### Completion (R38 to R41) -/

/-- The outcome settled from the record, in the order of precedence of R38. -/
def settle (r : TxRecord) : BusOutcome :=
  if r.voidSeen then .void
  else
    match recordRequest r with
    | none => .void
    | some t =>
      if t.kind.hasResponse then
        if r.responded = some true then
          match r.response with
          | some x => .answered x
          | none => .void
        else .absent
      else .complete

/-- The completion of the own GRANT at its home (R15, R39, R64, R67): voided, it returns to the head;
otherwise it leaves, the refill is made, and its outcome is a claim: behind those that waited, or, where none did,
at a home that is free. -/
def grantCompleted (t : Transaction) (o : BusOutcome) (h : Hw) : Hw :=
  if o = .void then endEngagement id (returnPriority t h)
  else
    let outcome : Claim := .grantOutcome t.target t.targetSlot t.lock t.mode o
    let g := departGrant h
    if g.htu.claims = [] then addClaim outcome (endEngagement id g)
    else endEngagement id (g.setHtu { g.htu with claims := g.htu.claims ++ [outcome] })

/-- A voided entry its owner keeps (R40): back at the head of the list it came from. -/
def keepEntry (round : Round) (t : Transaction) (h : Hw) : Hw :=
  match round with
  | .priority => returnPriority t h
  | .normal => returnNormal t h

/-- The completion at the initiator, by the entry's owner (R39, R40). -/
def initiatorCompleted (round : Round) (t : Transaction) (presence : BitVec 16) (o : BusOutcome)
    (h : Hw) : Hw :=
  match t.kind with
  | .acquire | .release | .downgrade | .cancel => slotOutcome t o h
  | .grant => grantCompleted t o h
  | .reassert => reassertOutcome t o h
  | .beacon | .evict => if o = .void then keepEntry round t h else h
  | .join => if o = .void then keepEntry round t h else ownJoin presence h
  | .leave => if o = .void then keepEntry round t h else ownLeave h
  | .purge =>
    if o = .void then keepEntry round t h else deliverPurgeCause h.id false (endFlush h)

/-- The decision recorded, as the completion applies it (R24, R51, R54). -/
def applyDecision (d : Option Decision) (h : Hw) : Hw :=
  match d with
  | some d => applyChanges d.changes id h
  | none => h

/-- The completion at the responder (R39, R40): the decision applied or discarded, the home freed; or the
answer to a GRANT applied or discarded. -/
def responderCompleted (t : Transaction) (o : BusOutcome) (h : Hw) : Hw :=
  if t.kind = .grant then settleAnswer (o = .void) h
  else endEngagement (if o = .void then id else applyDecision h.htu.decision) h

/-- The effects of a peer's JOIN (R136). An ONLINE raised with them (R137) comes first, before PEER_JOINED and the
RESULTs of the waits that end, whatever the operand says: the model's choice (R98, log 8). -/
def peerJoined (s : StationId) (presence : BitVec 16) (eventFirst : Bool) (h : Hw) : Hw :=
  if h.scu.station.present ∧ s ≠ h.id ∧ ¬presence.getLsbD s.val then
    inOrder eventFirst (raiseEvent (.peerJoined s)) (fun g => walkerAdd s (reissueWaits s g))
      (unawait s (deliverPurgeCause s false h))
  else h

/-- The effects of a peer's LEAVE (R150); the MBU's own effect is `peerAbsent`. An ONLINE raised with them (R137) comes
first, before PEER_LEFT and the RESULTs of the waits that fail, whatever the operand says: the model's choice (R98,
log 8). -/
def peerLeft (s : StationId) (eventFirst : Bool) (h : Hw) : Hw :=
  if h.scu.station.present ∧ s ≠ h.id then
    inOrder eventFirst (raiseEvent (.peerLeft s)) (fun g => walkerDrop s (failWaits s g))
      (unawait s (deliverPurgeCause s false h))
  else h

/-- The effects of an EVICT on the station it names (R93, R124). -/
def evicted (s : StationId) (eventFirst : Bool) (h : Hw) : Hw :=
  if h.scu.station.present then
    inOrder eventFirst (raiseEvent (.evictedBy s)) (revokeByEvict s) h
  else h

/-- The completion at the other observing stations, unvoided (R39). -/
def observerCompleted (source : StationId) (t : Transaction) (presence : BitVec 16)
    (eventFirst : Bool) (h : Hw) : Hw :=
  match t.kind with
  | .join => peerJoined source presence eventFirst h
  | .leave => peerLeft source eventFirst h
  | .purge => deliverPurgeCause source false h
  | .evict => if t.target = h.id then evicted source eventFirst h else h
  | .acquire | .release | .downgrade | .cancel | .grant | .reassert | .beacon => h

/-- The MBU's part of a completion: the sighting of the winner, or an unvoided LEAVE of a peer, which takes
its place (R113, R114, R122). -/
def membershipCompleted (r : TxRecord) (o : BusOutcome) (h : Hw) : Hw :=
  match recordRequest r with
  | some t =>
    if t.kind = .leave ∧ o = .complete ∧ r.winner ≠ h.id then peerAbsent r.winner h
    else sighting r.winner (r.role = .initiator) h
  | none => sighting r.winner (r.role = .initiator) h

/-- The record closed (R31, R41). -/
def closeRecord (h : Hw) : Hw := { h with lbc := { h.lbc with record := none } }

/-- The deliveries of a completion to the blocks, by this station's role (R39, R40). -/
def deliver (r : TxRecord) (o : BusOutcome) (eventFirst : Bool) (h : Hw) : Hw :=
  let presence := r.presence.getD 0
  match r.role with
  | .initiator =>
    match r.entry with
    | some t => initiatorCompleted r.round t presence o h
    | none => h
  | .responder =>
    match recordRequest r with
    | some t => responderCompleted t o h
    | none => h
  | .observer =>
    match recordRequest r with
    | some t => if o = .void then h else observerCompleted r.winner t presence eventFirst h
    | none => h

/-- The completion phase (R38 to R41): LVOID read for the last time, and an error this station has found counted
with it (R35), the outcome settled, the record closed, the sighting taken and the deliveries made. -/
def completeTransaction (others : Lines) (eventFirst : Bool) (h : Hw) : Hw :=
  match h.lbc.record with
  | none => h
  | some r =>
    if r.phase = .completion then
      let settled := r.noteVoid r.error others.lvoid
      let o := settle settled
      deliver settled o eventFirst (membershipCompleted settled o (closeRecord h))
    else h

end Sys2Proof.Machine
end

