-- ==== Sys2Proof/Machine/Pins.lean ====
section
/-! DEFINITION. The meanings of the pin commands: power-on reset, station reset and client reset
(R151, R152, R154, R179, R180). -/

namespace Sys2Proof.Machine

/-- A command that always has its effect on the hardware and leaves the queue alone. -/
def acts (f : Hw → Hw) (s : State) : Host.Outcome State Fault Refusal := .next { s with hw := f s.hw }

/-- Release of POR_N: the strap values present at that moment are taken and kept (R179). A release of a
pin that is not asserted is no event. -/
def releasePor (id : StationId) (bpsel : Fin 4) (h : Hw) : Hw :=
  if h.port.porAsserted then
    { h with
      scu := { h.scu with id, bpsel }
      port := { h.port with porAsserted := false } }
  else h

/-- Assertion of SRST_N: a station reset, and the pin shown (R151, R180). An assertion given while the pin is
asserted already resets again (DESIGN CHOICE, log 29: the spec gives the first assertion only). -/
def assertSrst (h : Hw) : Hw :=
  let r := stationReset .none h
  { r with port := { r.port with srstAsserted := true } }

/-- Release of SRST_N: the held reset ends, the station stays OFFLINE (R180). -/
def releaseSrst (h : Hw) : Hw := { h with port := { h.port with srstAsserted := false } }

/-- A falling edge of CRST_N: a client flush where one may start, ignored elsewhere (R154). -/
def fallCrst (h : Hw) : Hw := if mayFlush h then startFlush h else h

/-- POWER_ON_RESET (R152). -/
def execPowerOnReset (id : StationId) (bpsel : Fin 4) (s : State) :
    Host.Outcome State Fault Refusal := acts (powerOnReset id bpsel) s

/-- POR_N_RELEASE (R179). -/
def execPorNRelease (id : StationId) (bpsel : Fin 4) (s : State) :
    Host.Outcome State Fault Refusal := acts (releasePor id bpsel) s

/-- STATION_RESET (R151). -/
def execStationReset (s : State) : Host.Outcome State Fault Refusal := acts assertSrst s

/-- SRST_N_RELEASE (R180). -/
def execSrstNRelease (s : State) : Host.Outcome State Fault Refusal := acts releaseSrst s

/-- CRST_N (R154). -/
def execCrstN (s : State) : Host.Outcome State Fault Refusal := acts fallCrst s

end Sys2Proof.Machine
end

