-- ==== Sys2Proof/Machine/HomeClaims.lean ====
section
/-! DEFINITION. The meanings of the home's claim commands: each takes the claim of its kind that has reached a free
home (R51 to R53, log 5), and PURGE_END ends a purge (R21). A command whose event is not due changes nothing
(log 7). -/

namespace Sys2Proof.Machine

/-- The claim is a self-homed request. -/
def Claim.isSelfRequest : Claim → Bool
  | .selfRequest _ => true
  | .lockTransaction | .grantOutcome .. | .internalOutcome .. | .purgeCause .. | .rebuildExpiry => false

/-- The claim is a GRANT outcome from the lockbus. -/
def Claim.isGrantOutcome : Claim → Bool
  | .grantOutcome .. => true
  | .lockTransaction | .selfRequest _ | .internalOutcome .. | .purgeCause .. | .rebuildExpiry => false

/-- The claim is an internal GRANT outcome. -/
def Claim.isInternalOutcome : Claim → Bool
  | .internalOutcome .. => true
  | .lockTransaction | .selfRequest _ | .grantOutcome .. | .purgeCause .. | .rebuildExpiry => false

/-- The claim is a purge cause. -/
def Claim.isPurgeCause : Claim → Bool
  | .purgeCause .. => true
  | .lockTransaction | .selfRequest _ | .grantOutcome .. | .internalOutcome .. | .rebuildExpiry => false

/-- The end of the purge in progress, and the taking of the claims that waited for it (R21, R53). -/
def finishPurge (h : Hw) : Hw :=
  match h.htu.purge with
  | none => h
  | some p => takeWaiting h.htu.claims.length (endPurge p h)

/-- LOCK_TRANSACTION_CLAIM (R51). -/
def execLockTransactionClaim (s : State) : Host.Outcome State Fault Refusal :=
  acts takeEngaged s

/-- SELF_HOMED_REQUEST (R52). -/
def execSelfHomedRequest (s : State) : Host.Outcome State Fault Refusal :=
  acts (takeArrived Claim.isSelfRequest) s

/-- SELF_HOMED_RESPONSE (R80). -/
def execSelfHomedResponse (slot : SlotId) (s : State) : Host.Outcome State Fault Refusal :=
  acts (takeSlotResponse slot) s

/-- GRANT_OUTCOME (R64). -/
def execGrantOutcome (s : State) : Host.Outcome State Fault Refusal :=
  acts (takeArrived Claim.isGrantOutcome) s

/-- INTERNAL_GRANT_OUTCOME (R70). -/
def execInternalGrantOutcome (s : State) : Host.Outcome State Fault Refusal :=
  acts (takeArrived Claim.isInternalOutcome) s

/-- PURGE_CAUSE (R19). -/
def execPurgeCause (s : State) : Host.Outcome State Fault Refusal :=
  acts (takeArrived Claim.isPurgeCause) s

/-- PURGE_END (R21). -/
def execPurgeEnd (s : State) : Host.Outcome State Fault Refusal := acts finishPurge s

end Sys2Proof.Machine
end

