-- ==== Sys2Proof/Machine/Lockbus.lean ====
section
/-! DEFINITION. The meanings of the lockbus commands (R29, R32, R33, R36, R37, R38). -/

namespace Sys2Proof.Machine

/-- ARBITRATION (R29). -/
def execArbitration (priorityLines normalLines : BitVec 16) (s : State) :
    Host.Outcome State Fault Refusal := acts (arbitrate priorityLines normalLines) s

/-- REQUEST_PHASE (R32). -/
def execRequestPhase (first second : Lines) (s : State) : Host.Outcome State Fault Refusal :=
  acts (readRequestPhase first second) s

/-- OBSERVATION_PHASE (R33). -/
def execObservationPhase (others : Lines) (s : State) : Host.Outcome State Fault Refusal :=
  acts (startObservation others) s

/-- OBSERVATION_CLOSE (R36). -/
def execObservationClose (others : Lines) (s : State) : Host.Outcome State Fault Refusal :=
  acts (closeObservation others) s

/-- RESPONSE_PHASE (R37). -/
def execResponsePhase (others : Lines) (s : State) : Host.Outcome State Fault Refusal :=
  acts (readResponsePhase others) s

/-- COMPLETION (R38). -/
def execCompletion (others : Lines) (eventFirst : Bool) (s : State) :
    Host.Outcome State Fault Refusal := acts (completeTransaction others eventFirst) s

end Sys2Proof.Machine
end

