-- ==== Sys2Proof/Machine/StationCommands.lean ====
section
/-! DEFINITION. The meanings of the station commands (R131, R132, R147, R154, R171). -/

namespace Sys2Proof.Machine

/-- The port takes no access while POR_N is asserted (R180). -/
def atPort (f : Hw → Hw) (h : Hw) : Hw := if h.port.porAsserted then h else f h

/-- The command status set (R131). -/
def setStatus (c : CommandStatus) (h : Hw) : Hw := { h with scu := { h.scu with commandStatus := c } }

/-- A JOIN command taken: LISTENING, frozen, the own record SELF, the listen window started at 2P
(R132). -/
def takeJoin (h : Hw) : Hw :=
  let m := h.setMember h.id { state := .self, timer := none }
  { m with
    scu :=
      { m.scu with
        station := .listening, frozen := true, commandStatus := .taken
        listenTimer := some (Config.listenPeriods * h.period) } }

/-- JOIN: taken in OFFLINE with SRST_N released (R131). -/
def joinCommand (h : Hw) : Hw :=
  if h.scu.station = .offline ∧ ¬h.port.srstAsserted then takeJoin h else setStatus .wrongState h

/-- A LEAVE command taken: LEAVING, a rebuild ended, a flush started or the one in progress adopted
(R147). -/
def takeLeave (h : Hw) : Hw :=
  let gone : Hw :=
    { h with
      scu := { h.scu with station := .leaving, commandStatus := .taken }
      htu := { h.htu with awaited := 0, rebuildTimer := none } }
  if h.scu.flushing then gone else startFlush gone

/-- LEAVE: taken in REBUILDING and ONLINE (R131). -/
def leaveCommand (h : Hw) : Hw :=
  if h.scu.station = .rebuilding ∨ h.scu.station = .online then takeLeave h
  else setStatus .wrongState h

/-- FLUSH: taken in REBUILDING and ONLINE with the flushing flag clear (R131, R154). -/
def flushCommand (h : Hw) : Hw :=
  if mayFlush h then startFlush (setStatus .taken h) else setStatus .wrongState h

/-- JOIN (R132). -/
def execJoin (s : State) : Host.Outcome State Fault Refusal := acts (atPort joinCommand) s

/-- LEAVE (R147). -/
def execLeave (s : State) : Host.Outcome State Fault Refusal := acts (atPort leaveCommand) s

/-- FLUSH (R154). -/
def execFlush (s : State) : Host.Outcome State Fault Refusal := acts (atPort flushCommand) s

/-- RESET: a station reset in every state, the command status TAKEN (R171). -/
def execReset (s : State) : Host.Outcome State Fault Refusal := acts (atPort (stationReset .taken)) s

/-- STATION_COMMAND_INVALID: an undefined code is refused WRONG_STATE (R171). -/
def execStationCommandInvalid (_code : BitVec 3) (s : State) : Host.Outcome State Fault Refusal :=
  acts (atPort (setStatus .wrongState)) s

end Sys2Proof.Machine
end

