-- ==== Sys2Proof/Machine/PortAccess.lean ====
section
/-! DEFINITION. The meanings of the other port accesses: the slot parameter, the queue head, the
configuration and the writes the port ignores (R105, R167, R168, R173). -/

namespace Sys2Proof.Machine

/-- The slot parameter register written: bits 0–15 the wait limit, bits 16–31 not stored (R168). -/
def writeParameter (n : SlotId) (value : Word) (h : Hw) : Hw :=
  { h with rqt := { h.rqt with waitLimits := h.rqt.waitLimits.set n.val (bits value 0 16) n.isLt } }

/-- The word a port read returns. -/
def setReadData (w : Word) (h : Hw) : Hw := { h with port := { h.port with readData := w } }

/-- A slot whose RESULT was read goes from DONE to IDLE (R81, R105). -/
def readDone (n : SlotId) (h : Hw) : Hw :=
  if (h.slot n).state = .done then
    h.setSlot n (.idleWith (h.slot n).refusal (h.slot n).owed)
  else h

/-- The change a read of an entry makes besides its removal (R105). -/
def afterRead (e : QueueEntry) (h : Hw) : Hw :=
  match e with
  | .result n _ _ _ _ _ => readDone n h
  | .notice n => { h with cqu := h.cqu.setNotice n false }
  | .station => { h with cqu := { h.cqu with events := .empty } }

/-- A whole read of the queue head register (R105). -/
def readHead (h : Hw) : Hw :=
  match h.cqu.queue with
  | [] => setReadData 0 h
  | e :: rest =>
    setReadData (entryWord h e) (afterRead e { h with cqu := { h.cqu with queue := rest } })

/-- A read of the queue head register: a partial one, and one while POR_N is asserted, returns 0 and
removes nothing (R167, R180). -/
def queueRead (enables : BitVec 4) (h : Hw) : Hw :=
  if h.port.porAsserted ∨ enables ≠ 15 then setReadData 0 h else readHead h

/-- The configuration write status set (R173). -/
def setConfigStatus (c : ConfigStatus) (h : Hw) : Hw :=
  { h with scu := { h.scu with configStatus := c } }

/-- Routes register `k` replaced (R173). -/
def Scu.setRoutes (k : Fin 4) (rs : Vector Route 8) (c : Scu) : Scu :=
  { c with
    routes :=
      Vector.ofFn fun n : Fin 32 =>
        if n.val / 8 = k.val then rs.get ⟨n.val % 8, by omega⟩ else c.routes.get n }

/-- The station configuration register replaced (R173). -/
def Scu.setConfig (f : StationConfig) (c : Scu) : Scu :=
  { c with
    stationRoute := f.route, lineModes := f.modes, backoffBase := f.backoffBase
    attemptLimit := f.attemptLimit, lossThreshold := f.lossThreshold }

/-- A change of a line's mode ends its pulse and sets its count of pulses owed to 0 (R109). -/
def Cqu.changeModes (before after : Vector LineMode 4) (c : Cqu) : Cqu :=
  { c with
    lines :=
      Vector.ofFn fun n : Fin 4 =>
        if before.get n = after.get n then c.lines.get n else { owed := 0, phase := .idle } }

/-- A configuration register written with every field in range, or none when one is out of range
(R173). -/
def writeConfig (reg : ConfigRegister) (value : Word) (h : Hw) : Option Hw :=
  match reg with
  | .routes k => (routeFields value).map fun rs => { h with scu := h.scu.setRoutes k rs }
  | .station =>
    (stationConfigFields value).map fun f =>
      { h with
        scu := h.scu.setConfig f
        cqu := h.cqu.changeModes h.scu.lineModes f.modes }

/-- A configuration write taken, or refused FROZEN or RANGE (R173). -/
def configWrite (reg : ConfigRegister) (value : Word) (h : Hw) : Hw :=
  if h.scu.frozen then setConfigStatus .frozen h
  else
    match writeConfig reg value h with
    | none => setConfigStatus .range h
    | some g => setConfigStatus .taken g

/-- SLOT_PARAMETER_WRITE (R168). -/
def execSlotParameterWrite (slot : SlotId) (value : Word) (s : State) :
    Host.Outcome State Fault Refusal := acts (atPort (writeParameter slot value)) s

/-- QUEUE_HEAD_READ (R105). -/
def execQueueHeadRead (enables : BitVec 4) (s : State) : Host.Outcome State Fault Refusal :=
  acts (queueRead enables) s

/-- CONFIGURATION_WRITE (R173). -/
def execConfigurationWrite (reg : ConfigRegister) (value : Word) (s : State) :
    Host.Outcome State Fault Refusal := acts (atPort (configWrite reg value)) s

/-- PORT_WRITE_IGNORED (R167): nothing changes. -/
def execPortWriteIgnored (_addr : BitVec 10) (_enables : BitVec 4) (_value : Word) (s : State) :
    Host.Outcome State Fault Refusal := acts (fun h => h) s

end Sys2Proof.Machine
end

