-- ==== Sys2Proof/Machine/SlotCommands.lean ====
section
/-! DEFINITION. The meanings of the slot commands (R75 to R79). -/

namespace Sys2Proof.Machine

/-- A slot command refused: its refusal code and nothing else (R75). -/
def refuse (n : SlotId) (c : RefusalCode) (h : Hw) : Hw := h.setSlot n { h.slot n with refusal := c }

/-- Check 2 of R75: REBUILDING or ONLINE with the flushing flag clear. -/
def stationReady (h : Hw) : Bool :=
  (h.scu.station = .rebuilding || h.scu.station = .online) && !h.scu.flushing

/-- Checks 2 and 3 of R75, and what a command that passes does; the refusal code becomes NONE. -/
def whenIdle (n : SlotId) (f : Hw → Hw) (h : Hw) : Hw :=
  if ¬stationReady h then refuse n .stationNotReady h
  else if (h.slot n).state ≠ .idle then refuse n .slotBusy h
  else f (refuse n .none h)

/-- The operation of a command taken on an IDLE slot recorded, attempts 0 (R71, R76). -/
def recordOperation (n : SlotId) (o : Operation) (h : Hw) : Hw :=
  h.setSlot n { h.slot n with operation := some o, attempts := 0 }

/-- The wait timer of an ACQUIRE: started at the limit in ms unless that is 0 (R76, R89). -/
def waitTimerOf (limit : BitVec 16) : Option Nat :=
  if limit = 0 then none else some (1000 * limit.toNat)

/-- The detail of ALREADY_HELD: the entry's state (R76). -/
def alreadyHeldDetail (s : HoldState) : ResultDetail := if s = .revoked then .revoked else .held

/-- A taken ACQUIRE that goes to its home (R76): a reservation, the wait timer, the ACQUIRE issued. -/
def reserveAndIssue (n : SlotId) (lock : LockId) (mode : Mode) (limit : BitVec 16) (h : Hw) : Hw :=
  issueOperation n
    ((h.setHolds
        (insertHold { lock, slot := n, mode, state := .reserved, mark := false } h.rqt.holds)).setSlot n
      { h.slot n with waitTimer := waitTimerOf limit })

/-- An ACQUIRE taken (R76). -/
def takeAcquire (n : SlotId) (lock : LockId) (mode : Mode) (tryFlag : Bool) (h : Hw) : Hw :=
  let limit := h.rqt.waitLimits.get n
  let r :=
    recordOperation n { op := .acquire, lock, mode := some mode, tryFlag, waitLimit := limit } h
  match findHold n lock h.rqt.holds with
  | some e => endAcquire n .alreadyHeld (alreadyHeldDetail e.state) r
  | none =>
    if Config.holdCapacity ≤ h.rqt.holds.length then endAcquire n .noSpace .none r
    else reserveAndIssue n lock mode limit r

/-- ACQUIRE checked and taken (R75, R76). -/
def acquireCommand (n : SlotId) (mode : BitVec 2) (tryFlag : Bool) (lock : BitVec 13) (h : Hw) : Hw :=
  match modeField mode, lockField lock with
  | some m, some l => whenIdle n (takeAcquire n l m tryFlag) h
  | _, _ => refuse n .badCommand h

/-- The operation of a RELEASE or DOWNGRADE. -/
def plainOperation (op : Op) (lock : LockId) : Operation :=
  { op, lock, mode := none, tryFlag := false, waitLimit := 0 }

/-- A RELEASE taken (R77). -/
def takeRelease (n : SlotId) (lock : LockId) (h : Hw) : Hw :=
  let r := recordOperation n (plainOperation .release lock) h
  match findHold n lock h.rqt.holds with
  | none => endOperation n .notHeld .none none r
  | some e =>
    if e.state = .revoked then endRelease n .revoked r
    else issueOperation n (setOperationHold n .releasing e.mode r)

/-- RELEASE checked and taken (R75, R77). -/
def releaseCommand (n : SlotId) (lock : BitVec 13) (h : Hw) : Hw :=
  match lockField lock with
  | some l => whenIdle n (takeRelease n l) h
  | none => refuse n .badCommand h

/-- A DOWNGRADE taken (R78). The walker acts on a hold that becomes DOWNGRADING (R143). -/
def takeDowngrade (n : SlotId) (lock : LockId) (h : Hw) : Hw :=
  let r := recordOperation n (plainOperation .downgrade lock) h
  match findHold n lock h.rqt.holds with
  | none => endOperation n .notHeld .none none r
  | some e =>
    if e.state = .revoked then endOperation n .notHeld .revoked (some e.mode) r
    else if e.mode = .shared then endOperation n .notExclusive .none (some .shared) r
    else walkerAct (issueOperation n (setOperationHold n .downgrading e.mode r))

/-- DOWNGRADE checked and taken (R75, R78). -/
def downgradeCommand (n : SlotId) (lock : BitVec 13) (h : Hw) : Hw :=
  match lockField lock with
  | some l => whenIdle n (takeDowngrade n l) h
  | none => refuse n .badCommand h

/-- Check 4 of R75: there is an ACQUIRE to cancel. -/
def cancellable (r : SlotRecord) : Bool :=
  r.hasOp .acquire &&
    match r.state with
    | .queuedOut | .backoff => true
    | .waiting | .onBus => r.cause.isNone
    | .idle | .cancelling | .done => false

/-- CANCEL checked and taken (R75, R79). -/
def cancelCommand (n : SlotId) (h : Hw) : Hw :=
  if ¬stationReady h then refuse n .stationNotReady h
  else if ¬cancellable (h.slot n) then refuse n .nothingToCancel h
  else requestCancel n .client (refuse n .none h)

/-- ACQUIRE (R76). -/
def execAcquire (slot : SlotId) (mode : BitVec 2) (tryFlag : Bool) (lock : BitVec 13) (s : State) :
    Host.Outcome State Fault Refusal := acts (atPort (acquireCommand slot mode tryFlag lock)) s

/-- RELEASE (R77). -/
def execRelease (slot : SlotId) (lock : BitVec 13) (s : State) : Host.Outcome State Fault Refusal :=
  acts (atPort (releaseCommand slot lock)) s

/-- DOWNGRADE (R78). -/
def execDowngrade (slot : SlotId) (lock : BitVec 13) (s : State) : Host.Outcome State Fault Refusal :=
  acts (atPort (downgradeCommand slot lock)) s

/-- CANCEL (R79). -/
def execCancel (slot : SlotId) (s : State) : Host.Outcome State Fault Refusal :=
  acts (atPort (cancelCommand slot)) s

/-- SLOT_COMMAND_INVALID: an undefined code is refused BAD_COMMAND (R75, R168). -/
def execSlotCommandInvalid (slot : SlotId) (_code : BitVec 3) (s : State) :
    Host.Outcome State Fault Refusal := acts (atPort (refuse slot .badCommand)) s

end Sys2Proof.Machine
end

