-- ==== Sys2Proof/Machine/Timers.lean ====
section
/-! DEFINITION. The meanings of the timer commands (R84, R89, R108, R116, R120, R133, R139), and the tick
of 1 µs that an empty queue makes (11.4, log 3). -/

namespace Sys2Proof.Machine

/-! ### Expiries -/

/-- Expiry of a slot's wait timer, while it runs (R89). -/
def waitExpiry (n : SlotId) (h : Hw) : Hw :=
  if (h.slot n).waitTimer.isSome ∧ ¬(h.slot n).aborted then
    requestCancel n .timeout (h.setSlot n { h.slot n with waitTimer := none })
  else h

/-- Expiry of a slot's backoff timer, while it runs: the operation is issued again (R84). -/
def backoffExpiry (n : SlotId) (h : Hw) : Hw :=
  if (h.slot n).state = .backoff ∧ (h.slot n).backoffTimer.isSome ∧ ¬(h.slot n).aborted then
    issueOperation n (h.setSlot n { h.slot n with backoffTimer := none })
  else h

/-- Expiry of the beacon timer, which runs on with period P (R116). -/
def beaconExpiry (h : Hw) : Hw :=
  if h.mbu.beaconTimer.isSome then
    let placed := if ¬h.mbu.wonMark ∧ ¬beaconOut h then placeNormal { kind := .beacon } h else h
    { placed with
      mbu := { placed.mbu with wonMark := false, beaconTimer := some h.period } }
  else h

/-- A silence timer that can expire: it runs, and no sighting has just started it from zero (R121). -/
def silenceRuns (m : Member) : Bool :=
  match m.timer with
  | some k => m.state = .present && 0 < k
  | none => false

/-- Expiry of a peer's silence timer, while it runs and is not held (R118, R120); one that comes together with
the completion of the peer's transaction may be taken before it (R121). -/
def silenceExpiry (p : StationId) (eventFirst : Bool) (h : Hw) : Hw :=
  if silenceRuns (h.mbu.member p) ∧ (¬silenceHeld p h ∨ comesTogether p h) then
    declareLost p eventFirst h
  else h

/-- Expiry of the listen window: JOINING, and the JOIN placed (R133). -/
def listenExpiry (h : Hw) : Hw :=
  if h.scu.listenTimer.isSome ∧ h.scu.station = .listening then
    placeNormal { kind := .join }
      { h with scu := { h.scu with station := .joining, listenTimer := none } }
  else h

/-- Expiry of the rebuild timer: handed as a claim, which a free home takes at once when none arrived before it
(R139, R53); an expiry already handed is taken when it is the oldest. -/
def rebuildExpiry (h : Hw) : Hw :=
  takeArrived (· = .rebuildExpiry)
    (if h.htu.rebuildTimer.isSome then
      addClaim .rebuildExpiry (h.setHtu { h.htu with rebuildTimer := none })
    else h)

/-- A notify line ends one pulse and its gap (R108). -/
def pulseEnd (n : LineId) (h : Hw) : Hw :=
  if h.scu.lineModes.get n = .pulse ∧ (h.cqu.lines.get n).phase ≠ .idle then
    { h with cqu := h.cqu.setLine n (h.cqu.lines.get n).endPulse }
  else h

/-- WAIT_TIMER_EXPIRY (R89). -/
def execWaitTimerExpiry (slot : SlotId) (s : State) : Host.Outcome State Fault Refusal :=
  acts (waitExpiry slot) s

/-- BACKOFF_TIMER_EXPIRY (R84). -/
def execBackoffTimerExpiry (slot : SlotId) (s : State) : Host.Outcome State Fault Refusal :=
  acts (backoffExpiry slot) s

/-- BEACON_TIMER_EXPIRY (R116). -/
def execBeaconTimerExpiry (s : State) : Host.Outcome State Fault Refusal := acts beaconExpiry s

/-- SILENCE_TIMER_EXPIRY (R120). -/
def execSilenceTimerExpiry (peer : StationId) (eventFirst : Bool) (s : State) :
    Host.Outcome State Fault Refusal := acts (silenceExpiry peer eventFirst) s

/-- LISTEN_WINDOW_EXPIRY (R133). -/
def execListenWindowExpiry (s : State) : Host.Outcome State Fault Refusal := acts listenExpiry s

/-- REBUILD_TIMER_EXPIRY (R139). -/
def execRebuildTimerExpiry (s : State) : Host.Outcome State Fault Refusal := acts rebuildExpiry s

/-- NOTIFY_PULSE (R108). -/
def execNotifyPulse (line : LineId) (s : State) : Host.Outcome State Fault Refusal :=
  acts (pulseEnd line) s

/-! ### The tick -/

/-- A timer that counts down, 1 µs later. -/
def countDown (t : Option Nat) : Option Nat := t.map (· - 1)

/-- A timer that counts down is due at the end of this tick. -/
def isDue (t : Option Nat) : Bool :=
  match t with
  | some k => k ≤ 1
  | none => false

/-- A silence timer advances by 1 µs unless it is held (R118). -/
def Member.tick (held : Bool) (m : Member) : Member :=
  if held then m else { m with timer := m.timer.map (· + 1) }

/-- A slot's timers, 1 µs later. -/
def SlotRecord.tick (r : SlotRecord) : SlotRecord :=
  { r with waitTimer := countDown r.waitTimer, backoffTimer := countDown r.backoffTimer }

/-- A pulse of 1 µs ends in its gap of 1 µs (11.4); the end of the gap is NOTIFY_PULSE. -/
def Line.tick (l : Line) : Line := if l.phase = .high then { l with phase := .gap } else l

/-- Every timer of the station, 1 µs later. -/
def tickHw (h : Hw) : Hw :=
  { h with
    scu := { h.scu with listenTimer := countDown h.scu.listenTimer }
    htu := { h.htu with rebuildTimer := countDown h.htu.rebuildTimer }
    mbu :=
      { h.mbu.mapMembers (fun s m => m.tick (silenceHeld s h)) with
        beaconTimer := countDown h.mbu.beaconTimer }
    rqt := h.rqt.mapSlots SlotRecord.tick
    cqu := { h.cqu with lines := h.cqu.lines.map Line.tick } }

/-- A peer's silence timer is due at the end of this tick (R118). -/
def silenceDue (h : Hw) (p : StationId) : Bool :=
  match (h.mbu.member p).timer with
  | some k => lossLimit h ≤ k + 1 && !silenceHeld p h
  | none => false

/-- The expiry commands due at the end of this tick, in a fixed order (log 3). -/
def dueCommands (h : Hw) : List Instr :=
  (if isDue h.scu.listenTimer then [.listenWindowExpiry] else [])
    ++ (if isDue h.htu.rebuildTimer then [.rebuildTimerExpiry] else [])
    ++ (if isDue h.mbu.beaconTimer then [.beaconTimerExpiry] else [])
    ++ ((List.finRange 16).filter (silenceDue h)).map (fun p => Instr.silenceTimerExpiry p false)
    ++ ((List.finRange 32).filter fun n => isDue (h.slot n).waitTimer).map Instr.waitTimerExpiry
    ++ ((List.finRange 32).filter fun n => isDue (h.slot n).backoffTimer).map Instr.backoffTimerExpiry
    ++ ((List.finRange 4).filter fun n => (h.cqu.lines.get n).phase = .gap).map Instr.notifyPulse

/-- One tick of 1 µs: the timers advance, and the expiries due stand in the queue (log 3). -/
def tick (s : State) : State := { hw := tickHw s.hw, pending := s.pending ++ dueCommands s.hw }

end Sys2Proof.Machine
end

