-- ==== Sys2Proof/Machine/Dispatch.lean ====
section
/-! DEFINITION. What each command does to everything but the queue: one arm per row of the table. -/

namespace Sys2Proof.Machine

-- One arm per constructor of Instr, in the table's order.
def exec (i : Instr) (s : State) : Host.Outcome State Fault Refusal :=
  match i with
  | .powerOnReset id bpsel => Sys2Proof.Machine.execPowerOnReset id bpsel s
  | .porNRelease id bpsel => Sys2Proof.Machine.execPorNRelease id bpsel s
  | .stationReset => Sys2Proof.Machine.execStationReset s
  | .srstNRelease => Sys2Proof.Machine.execSrstNRelease s
  | .crstN => Sys2Proof.Machine.execCrstN s
  | .join => Sys2Proof.Machine.execJoin s
  | .leave => Sys2Proof.Machine.execLeave s
  | .flush => Sys2Proof.Machine.execFlush s
  | .reset => Sys2Proof.Machine.execReset s
  | .stationCommandInvalid code => Sys2Proof.Machine.execStationCommandInvalid code s
  | .acquire slot mode tryFlag lock => Sys2Proof.Machine.execAcquire slot mode tryFlag lock s
  | .release slot lock => Sys2Proof.Machine.execRelease slot lock s
  | .downgrade slot lock => Sys2Proof.Machine.execDowngrade slot lock s
  | .cancel slot => Sys2Proof.Machine.execCancel slot s
  | .slotCommandInvalid slot code => Sys2Proof.Machine.execSlotCommandInvalid slot code s
  | .slotParameterWrite slot value => Sys2Proof.Machine.execSlotParameterWrite slot value s
  | .queueHeadRead enables => Sys2Proof.Machine.execQueueHeadRead enables s
  | .configurationWrite reg value => Sys2Proof.Machine.execConfigurationWrite reg value s
  | .portWriteIgnored addr enables value => Sys2Proof.Machine.execPortWriteIgnored addr enables value s
  | .arbitration priorityLines normalLines => Sys2Proof.Machine.execArbitration priorityLines normalLines s
  | .requestPhase first second => Sys2Proof.Machine.execRequestPhase first second s
  | .observationPhase others => Sys2Proof.Machine.execObservationPhase others s
  | .observationClose others => Sys2Proof.Machine.execObservationClose others s
  | .responsePhase others => Sys2Proof.Machine.execResponsePhase others s
  | .completion others eventFirst => Sys2Proof.Machine.execCompletion others eventFirst s
  | .lockTransactionClaim => Sys2Proof.Machine.execLockTransactionClaim s
  | .selfHomedRequest => Sys2Proof.Machine.execSelfHomedRequest s
  | .selfHomedResponse slot => Sys2Proof.Machine.execSelfHomedResponse slot s
  | .grantOutcome => Sys2Proof.Machine.execGrantOutcome s
  | .internalGrantOutcome => Sys2Proof.Machine.execInternalGrantOutcome s
  | .purgeCause => Sys2Proof.Machine.execPurgeCause s
  | .purgeEnd => Sys2Proof.Machine.execPurgeEnd s
  | .waitTimerExpiry slot => Sys2Proof.Machine.execWaitTimerExpiry slot s
  | .backoffTimerExpiry slot => Sys2Proof.Machine.execBackoffTimerExpiry slot s
  | .beaconTimerExpiry => Sys2Proof.Machine.execBeaconTimerExpiry s
  | .silenceTimerExpiry peer eventFirst => Sys2Proof.Machine.execSilenceTimerExpiry peer eventFirst s
  | .listenWindowExpiry => Sys2Proof.Machine.execListenWindowExpiry s
  | .rebuildTimerExpiry => Sys2Proof.Machine.execRebuildTimerExpiry s
  | .notifyPulse line => Sys2Proof.Machine.execNotifyPulse line s

end Sys2Proof.Machine
end

