-- ==== Sys2Proof/Machine/Step.lean ====
section
/-! DEFINITION. The step: the command at the front of the queue is run on the state with the queue's rest;
an empty queue makes one tick of 1 µs (log 3). -/

namespace Sys2Proof.Machine

/-- One step. -/
def step (s : State) : Host.Outcome State Fault Refusal :=
  match s.pending with
  | [] => .next (tick s)
  | i :: rest => exec i { s with pending := rest }

/-- The command a table word spells put at the front of the queue; the state unchanged where the word
spells none, which is every word (log 22). -/
def State.withFetchWord (s : State) (nbits w : Nat) : State :=
  match decodeTableWord nbits w with
  | none => s
  | some i => { s with pending := i :: s.pending }

end Sys2Proof.Machine
end

