-- ==== Sys2Proof/Machine/Views.lean ====
section
/-! DEFINITION. What a read of each register of the port window returns (R167 to R169, R172 to R176). Reading
one of them changes nothing (R169, 9.7), so a read is a function of the state and not a command; the one
register whose read is a command, the queue head, is in PortAccess.lean (log 17). -/

namespace Sys2Proof.Machine

/-- A flag in a field of its own width. -/
def flagAt (pos : Nat) (b : Bool) : Word := if b then BitVec.twoPow 32 pos else 0

/-- A number in the bits from `pos` up; the ranges of 09 say how many it takes. -/
def fieldAt (pos n : Nat) : Word := BitVec.ofNat 32 n <<< pos

/-- A count that holds at a ceiling (R175). -/
def saturate (ceiling n : Nat) : Nat := min n ceiling

/-- A time in larger units, rounded up (R169, R175). -/
def unitsUp (unit t : Nat) : Nat := (t + unit - 1) / unit

/-- A timer's remaining time in larger units, rounded up; 0 when stopped (R169, R175). -/
def remaining (unit : Nat) (t : Option Nat) : Nat :=
  match t with
  | some k => unitsUp unit k
  | none => 0

/-! ### Slot status (R169) -/

/-- Slot state code (R169). -/
def slotStateCode : SlotState → Nat
  | .idle => 0
  | .queuedOut => 1
  | .onBus => 2
  | .waiting => 3
  | .backoff => 4
  | .cancelling => 5
  | .done => 6

/-- Refusal code (R169). -/
def refusalCode : RefusalCode → Nat
  | .none => 0
  | .slotBusy => 1
  | .stationNotReady => 2
  | .badCommand => 3
  | .nothingToCancel => 4

/-- Cancel cause code (R169). -/
def causeCode : Option CancelCause → Nat
  | none => 0
  | some .client => 1
  | some .timeout => 2

/-- The mode a slot status shows: an ACQUIRE's requested mode, or the mode of the slot's hold entry
(R169, note 2). -/
def shownMode (n : SlotId) (h : Hw) : Option Mode :=
  match (h.slot n).operation with
  | none => none
  | some o => if o.op = .acquire then o.mode else (findHold n o.lock h.rqt.holds).map (·.mode)

/-- Slot status A (R169). -/
def slotStatusA (n : SlotId) (h : Hw) : Word :=
  let r := h.slot n
  fieldAt 0 (slotStateCode r.state)
    ||| (match r.operation with
         | none => 0
         | some o =>
           fieldAt 3 (opCode o.op).toNat ||| flagAt 7 o.tryFlag ||| fieldAt 8 o.lock.val)
    ||| fieldAt 5 (modeCode (shownMode n h)).toNat
    ||| fieldAt 20 (refusalCode r.refusal)
    ||| fieldAt 24 r.attempts

/-- Slot status B (R169). -/
def slotStatusB (n : SlotId) (h : Hw) : Word :=
  let r := h.slot n
  fieldAt 0 (revokedCount n h.rqt.holds)
    ||| fieldAt 8 (causeCode r.cause)
    ||| flagAt 10 r.waitTimer.isSome
    ||| flagAt 11 r.backoffTimer.isSome
    ||| flagAt 12 r.aborted
    ||| flagAt 13 r.owed
    ||| flagAt 14 (h.cqu.notice n)
    ||| fieldAt 16 (remaining 1000 r.waitTimer)

/-! ### Station status (R172) -/

/-- Station state code (R172). -/
def stationCode : StationState → Nat
  | .offline => 0
  | .listening => 1
  | .joining => 2
  | .rebuilding => 3
  | .online => 4
  | .leaving => 5
  | .duplicate => 6

/-- Command status code (R172). -/
def commandCode : CommandStatus → Nat
  | .none => 0
  | .taken => 1
  | .wrongState => 2

/-- Configuration write status code (R172). -/
def configCode : ConfigStatus → Nat
  | .none => 0
  | .taken => 1
  | .frozen => 2
  | .range => 3

/-- Station status 0 (R172). -/
def stationStatus0 (h : Hw) : Word :=
  fieldAt 0 (stationCode h.scu.station)
    ||| flagAt 3 h.scu.flushing
    ||| flagAt 4 h.scu.frozen
    ||| fieldAt 5 (commandCode h.scu.commandStatus)
    ||| fieldAt 7 (configCode h.scu.configStatus)
    ||| fieldAt 9 h.scu.id.val
    ||| fieldAt 13 h.scu.bpsel.val
    ||| fieldAt 15 h.lbc.pointer.val
    ||| flagAt 19 h.mbu.wonMark
    ||| flagAt 20 h.port.srstAsserted

/-- Station status 1 (R172). -/
def stationStatus1 (h : Hw) : Word :=
  fieldAt 0 h.lbc.normal.length
    ||| fieldAt 8 h.lbc.priority.length
    ||| fieldAt 16 h.cqu.queue.length
    ||| flagAt 23 h.lbc.record.isSome
    ||| flagAt 24 (lineAsserted h 0)
    ||| flagAt 25 (lineAsserted h 1)
    ||| flagAt 26 (lineAsserted h 2)
    ||| flagAt 27 (lineAsserted h 3)

/-- Station status 2, the answer in flight (R172). -/
def stationStatus2 (h : Hw) : Word :=
  match h.rqt.answer with
  | none => 0
  | some a =>
    flagAt 0 true
      ||| fieldAt 1 a.slot.val
      ||| fieldAt 6 a.lock.val
      ||| flagAt 18 (a.mode = .exclusive)
      ||| flagAt 19 a.accept
      ||| flagAt 20 a.cancelToEnd

/-- Walker phase code (R172). -/
def phaseCode : Option WalkerPhase → Nat
  | none => 0
  | some .sending => 1
  | some .closing => 2

/-- Station status 3, the walker (R172). -/
def stationStatus3 (h : Hw) : Word :=
  fieldAt 0 (phaseCode h.rqt.phase)
    ||| fieldAt 2 h.rqt.outstanding
    ||| fieldAt 8 h.rqt.homes.length

/-- Up to eight station IDs, four bits each, the first in bits 0–3 (R172). -/
def packStations : List StationId → Word
  | [] => 0
  | s :: t => fieldAt 0 s.val ||| (packStations t <<< 4)

/-- The six station status words (R172). -/
def stationStatus (k : Fin 6) (h : Hw) : Word :=
  match k with
  | 0 => stationStatus0 h
  | 1 => stationStatus1 h
  | 2 => stationStatus2 h
  | 3 => stationStatus3 h
  | 4 => packStations (h.rqt.homes.take 8)
  | 5 => packStations ((h.rqt.homes.drop 8).take 7)

/-! ### Configuration (R173) -/

/-- Routes register `k` as read (R173). -/
def routesWord (k : Fin 4) (h : Hw) : Word :=
  (List.finRange 8).foldr
    (fun j w =>
      fieldAt (4 * j.val) (routeCode (h.scu.routes.get ⟨8 * k.val + j.val, by omega⟩)).toNat ||| w) 0

/-- The station configuration register as read (R173). -/
def configWord (h : Hw) : Word :=
  fieldAt 0 (routeCode h.scu.stationRoute).toNat
    ||| flagAt 4 (h.scu.lineModes.get 0 = .pulse)
    ||| flagAt 5 (h.scu.lineModes.get 1 = .pulse)
    ||| flagAt 6 (h.scu.lineModes.get 2 = .pulse)
    ||| flagAt 7 (h.scu.lineModes.get 3 = .pulse)
    ||| fieldAt 8 h.scu.backoffBase.toNat
    ||| fieldAt 16 h.scu.attemptLimit.toNat
    ||| fieldAt 20 h.scu.lossThreshold.toNat

/-- A configuration register as read (R173). -/
def configRead (r : ConfigRegister) (h : Hw) : Word :=
  match r with
  | .routes k => routesWord k h
  | .station => configWord h

/-! ### Inspection views (R174 to R176) -/

/-- Hold state code (R174). -/
def holdStateCode : HoldState → Nat
  | .reserved => 0
  | .held => 1
  | .releasing => 2
  | .downgrading => 3
  | .revoked => 4

/-- One position of the local hold table view (R174). -/
def holdView (pos : Nat) (h : Hw) : Word :=
  match h.rqt.holds.find? (·.1 = pos) with
  | none => 0
  | some (_, e) =>
    flagAt 0 true
      ||| fieldAt 1 e.lock.val
      ||| fieldAt 13 e.slot.val
      ||| flagAt 18 (e.mode = .exclusive)
      ||| fieldAt 19 (holdStateCode e.state)
      ||| flagAt 22 e.mark

/-- Home state code (R175). -/
def homeCode : HomeState → Nat
  | .inactive => 0
  | .rebuilding => 1
  | .serving => 2

/-- Home table summary 0 (R175). -/
def homeSummary0 (h : Hw) : Word :=
  fieldAt 0 (homeCode h.home)
    ||| (match h.htu.purge with
         | none => 0
         | some p => flagAt 2 true ||| fieldAt 3 p.station.val)
    ||| fieldAt 8 h.htu.posted
    ||| fieldAt 16 (saturate 255 h.htu.claims.length)

/-- Home table summary 1 (R175). -/
def homeSummary1 (h : Hw) : Word :=
  fieldAt 0 h.htu.holders.length ||| fieldAt 16 h.htu.waiters.length

/-- Home table summary 2 (R175). -/
def homeSummary2 (h : Hw) : Word :=
  fieldAt 0 h.htu.backlog.length
    ||| fieldAt 16 h.htu.stalled.length
    ||| (match h.htu.purge with
         | none => 0
         | some p => fieldAt 24 (saturate 255 p.removed))

/-- Home table summary 3 (R175). -/
def homeSummary3 (h : Hw) : Word :=
  BitVec.zeroExtend 32 h.htu.awaited ||| fieldAt 16 (remaining 100 h.htu.rebuildTimer)

/-- The four words of the home table summary (R175). -/
def homeSummary (k : Fin 4) (h : Hw) : Word :=
  match k with
  | 0 => homeSummary0 h
  | 1 => homeSummary1 h
  | 2 => homeSummary2 h
  | 3 => homeSummary3 h

/-- The index at a position of the stalled-lock list, 0 beyond its end (R175, note 2). -/
def stalledAt (pos : Nat) (h : Hw) : Nat :=
  match h.htu.stalled[pos]? with
  | some i => i.val
  | none => 0

/-- A word of the stalled-lock list view, four positions (R175, note 1). -/
def stalledView (k : Nat) (h : Hw) : Word :=
  fieldAt 0 (stalledAt (4 * k) h)
    ||| fieldAt 8 (stalledAt (4 * k + 1) h)
    ||| fieldAt 16 (stalledAt (4 * k + 2) h)
    ||| fieldAt 24 (stalledAt (4 * k + 3) h)

/-- Membership record state code (R176). -/
def memberCode : MemberState → Nat
  | .absent => 0
  | .self => 1
  | .present => 2
  | .lost => 3

/-- The membership view of one station (R176). The held bit of a record whose timer is stopped reads 0, also in a
stall and in that peer's own transaction (DESIGN CHOICE, log 30). -/
def membershipView (s : StationId) (h : Hw) : Word :=
  let m := h.mbu.member s
  fieldAt 0 (memberCode m.state)
    ||| (match m.timer with
         | none => 0
         | some k => flagAt 2 true ||| flagAt 3 (silenceHeld s h) ||| fieldAt 8 (k / 100))

/-! ### Reads at the port (R167) -/

/-- The word at the head of the completion queue, 0 when it is empty (R105, R170). -/
def headWord (h : Hw) : Word :=
  match h.cqu.queue with
  | [] => 0
  | e :: _ => entryWord h e

/-- The word a register shows; a write-only register and an offset outside the table show 0 (R167). -/
def registerWord (r : Register) (h : Hw) : Word :=
  match r with
  | .slotCommand _ | .stationCommand | .unmapped => 0
  | .slotParameter n => BitVec.zeroExtend 32 (h.rqt.waitLimits.get n)
  | .slotStatusA n => slotStatusA n h
  | .slotStatusB n => slotStatusB n h
  | .queueHead => headWord h
  | .stationStatus k => stationStatus k h
  | .config c => configRead c h
  | .holdView k => holdView k.val h
  | .homeSummary k => homeSummary k h
  | .stalledView k => stalledView k.val h
  | .membershipView s => membershipView s h

/-- The byte lanes an access addresses, as a mask. -/
def laneMask (enables : BitVec 4) : Word :=
  (List.finRange 4).foldr (fun i w => (if enables.getLsbD i.val then fieldAt (8 * i.val) 255 else 0) ||| w) 0

/-- What a read at a word address returns: 0 while POR_N is asserted (R180), the addressed bytes of the word
otherwise, and 0 for a partial read of the queue head (R167). -/
def portRead (addr : BitVec 10) (enables : BitVec 4) (h : Hw) : Word :=
  if h.port.porAsserted then 0
  else if registerAt addr = .queueHead ∧ enables ≠ 15 then 0
  else registerWord (registerAt addr) h &&& laneMask enables

end Sys2Proof.Machine
end

