-- ==== Sys2Proof/WellFormed.lean ====
section
/-! DEFINITION. The operands a row admits: an undefined code is one the spec leaves undefined, and an
ignored write is one the port ignores. Every other operand is admitted at every value of its type. -/

namespace Sys2Proof

/-- The command codes R168 and R171 leave undefined: 0 and 5 to 7. -/
def undefinedCode (c : BitVec 3) : Bool := c = 0 || 5 ≤ c.toNat

/-- The write is one the port ignores (R167). -/
def ignoredWrite (addr : BitVec 10) (enables : BitVec 4) : Bool :=
  enables ≠ 15 || !(registerAt addr).writable

/-- The operands are ones the command's row admits. -/
def Instr.wellFormed : Instr → Bool
  | .stationCommandInvalid code => undefinedCode code
  | .slotCommandInvalid _ code => undefinedCode code
  | .portWriteIgnored addr enables _ => ignoredWrite addr enables
  | .powerOnReset _ _ | .porNRelease _ _ | .stationReset | .srstNRelease | .crstN | .join | .leave
  | .flush | .reset | .acquire _ _ _ _ | .release _ _ | .downgrade _ _ | .cancel _
  | .slotParameterWrite _ _ | .queueHeadRead _ | .configurationWrite _ _ | .arbitration _ _
  | .requestPhase _ _ | .observationPhase _ | .observationClose _ | .responsePhase _
  | .completion _ _ | .lockTransactionClaim | .selfHomedRequest | .selfHomedResponse _
  | .grantOutcome | .internalGrantOutcome | .purgeCause | .purgeEnd | .waitTimerExpiry _
  | .backoffTimerExpiry _ | .beaconTimerExpiry | .silenceTimerExpiry _ _ | .listenWindowExpiry
  | .rebuildTimerExpiry | .notifyPulse _ => true

end Sys2Proof
end

