-- ==== Sys2Proof/Safety.lean ====
section
/-! DEFINITION. What it means that the part goes on and that its state is lawful: the reset values, and the laws
of the spec that every step is claimed to keep. -/

namespace Sys2Proof.Machine

/-! ### Going on -/

/-- The machine goes on from `s` for `k` steps: it meets no fault and no refusal. -/
def goesOn (k : Nat) (s : State) : Prop := ∃ t, Host.Core.run Sys2Proof.core k s = .next t

/-! ### What a command leaves alone -/

/-- The SCU, the membership unit and the pins are as they were. -/
def sameOutside (h t : Hw) : Prop := t.scu = h.scu ∧ t.mbu = h.mbu ∧ t.port = h.port

/-- The tracker's answer in flight, parameter registers and walker are as they were. -/
def sameWalk (q t : Rqt) : Prop :=
  t.answer = q.answer ∧ t.waitLimits = q.waitLimits ∧ t.homes = q.homes ∧ t.phase = q.phase
    ∧ t.outstanding = q.outstanding ∧ t.responses = q.responses

/-- Every slot but one is as it was. -/
def sameSlotsBut (n : SlotId) (q t : Rqt) : Prop := ∀ m, m ≠ n → t.slot m = q.slot m

/-- The home's values once the claim has reached it (R53): an engaged home has it at the tail of its list; at a free
home it does not enter the list, and is taken by its own command (log 5). -/
def received (c : Claim) (t : Htu) : Htu :=
  if t.engaged = .free then { t with arriving := t.arriving ++ [c] } else { t with claims := t.claims ++ [c] }

/-- The home's values once it is engaged (R23): a claim that had reached it and is not yet taken waits. -/
def engagedBy (e : Engagement) (t : Htu) : Htu :=
  { t with engaged := e, claims := t.claims ++ t.arriving, arriving := [] }

/-- From `t` to `u` the claims `new` have reached the home, in their order (R53). -/
def claimsReceived (new : List Claim) (t u : Htu) : Prop :=
  (t.engaged = .free → u.arriving = t.arriving ++ new ∧ u.claims = t.claims)
    ∧ (t.engaged ≠ .free → u.claims = t.claims ++ new ∧ u.arriving = t.arriving)

/-- A rebuild expiry that has been handed to the home has stopped its timer (R139). -/
def expiryOnce (t : Htu) : Prop := .rebuildExpiry ∈ t.claims ++ t.arriving → t.rebuildTimer = none

/-- The station takes slot commands (R75, check 2). -/
abbrev slotsReady (s : State) : Prop :=
  s.hw.port.porAsserted = false ∧ (s.hw.scu.station = .rebuilding ∨ s.hw.scu.station = .online)
    ∧ s.hw.scu.flushing = false

/-- A slot's operation ended at once, without the home: the slot DONE with its timers stopped, one RESULT
appended, nothing else changed (R81). -/
abbrev endedAtOnce (s t : State) (n : SlotId) (o : Operation) (result : QueueEntry) : Prop :=
  t.hw.rqt.slot n =
      { s.hw.rqt.slot n with
        state := .done, operation := some o, attempts := 0, refusal := .none
        waitTimer := none, backoffTimer := none, cause := none, ending := false }
    ∧ sameSlotsBut n s.hw.rqt t.hw.rqt ∧ sameWalk s.hw.rqt t.hw.rqt
    ∧ t.hw.cqu.queue = s.hw.cqu.queue ++ [result]
    ∧ t.hw.cqu.notices = s.hw.cqu.notices ∧ t.hw.cqu.events = s.hw.cqu.events
    ∧ t.hw.lbc = s.hw.lbc ∧ t.hw.htu = s.hw.htu ∧ sameOutside s.hw t.hw

/-- An operation issued to its home (R80): listed at the tail of the normal list and QUEUED_OUT for another
station's home, handed to the own home and ON_BUS for a self-homed lock. -/
abbrev issuedToHome (s t : State) (n : SlotId) (o : Operation) (x : Transaction) (q : Request)
    (timer : Option Nat) : Prop :=
  (∃ st, t.hw.rqt.slot n =
      { s.hw.rqt.slot n with
        state := st, operation := some o, attempts := 0, refusal := .none, waitTimer := timer }
    ∧ (homeOf o.lock ≠ s.hw.id → st = .queuedOut ∧ t.hw.lbc.normal = s.hw.lbc.normal ++ [x]
        ∧ t.hw.htu = s.hw.htu)
    ∧ (homeOf o.lock = s.hw.id → st = .onBus ∧ t.hw.lbc.normal = s.hw.lbc.normal
        ∧ t.hw.htu = received (.selfRequest q) s.hw.htu))
    ∧ t.hw.lbc.record = s.hw.lbc.record ∧ t.hw.lbc.pointer = s.hw.lbc.pointer
    ∧ sameSlotsBut n s.hw.rqt t.hw.rqt ∧ t.hw.cqu = s.hw.cqu ∧ sameOutside s.hw t.hw

/-- A hold table but for the walker's marks. -/
def unmarked (t : List (Nat × Hold)) : List (Nat × Hold) :=
  t.map fun p => (p.1, { p.2 with mark := false })

/-- The hold table after an operation of the slot on the lock ends with another result than ACQUIRED (R81): a
reservation is removed. -/
def withoutReservation (n : SlotId) (l : LockId) (t : List (Nat × Hold)) : List (Nat × Hold) :=
  if (findHold n l t).map (·.state) = some .reserved then removeHold n l t else t

/-- A slot's record after its operation ended (R81). -/
def SlotRecord.ended (r : SlotRecord) : SlotRecord :=
  { r with state := .done, cause := none, waitTimer := none, backoffTimer := none, ending := false }

/-- The result a cancel of a cause ends with (R85). -/
def CancelCause.result : CancelCause → ResultCode
  | .client => .cancelled
  | .timeout => .timedOut

/-- The slot's ACQUIRE on a lock of home `p` is meant by what happens to that home (R93 to R96): the slot is not
aborted (R156). -/
def onHome (s : State) (p : StationId) (n : SlotId) (o : Operation) : Prop :=
  (s.hw.rqt.slot n).aborted = false ∧ (s.hw.rqt.slot n).operation = some o ∧ homeOf o.lock = p

/-- The slot's operation has ended with a result that stands in the queue (R81). -/
def endedWith (s t : State) (n : SlotId) (o : Operation) (code : ResultCode) : Prop :=
  t.hw.rqt.slot n = (s.hw.rqt.slot n).ended
    ∧ .result n o.op o.lock o.mode code .none ∈ t.hw.cqu.queue

/-- The CANCELLING slots of another station's home `p` after the removal of their CANCELs (R86): found, the slot
has ended with its cancel result; not found, it is to end at the CANCEL's completion. -/
def cancelsRemoved (s t : State) (p : StationId) : Prop :=
  ∀ n o c, onHome s p n o → (s.hw.rqt.slot n).state = .cancelling → (s.hw.rqt.slot n).cause = some c →
    (slotEntryListed n s.hw = true → endedWith s t n o c.result ∧ slotEntryListed n t.hw = false)
    ∧ (slotEntryListed n s.hw = false → t.hw.rqt.slot n = { s.hw.rqt.slot n with ending := true })

/-- The waits on the locks of home `p` have failed (R95): WAITING slots without an ACCEPT in flight have ended
HOME_LOST, with it they are held, CANCELs are removed. -/
def waitsFailed (s t : State) (p : StationId) : Prop :=
  (∀ n o, onHome s p n o → (s.hw.rqt.slot n).state = .waiting →
      (acceptInFlight n s.hw = false → endedWith s t n o .homeLost)
      ∧ (acceptInFlight n s.hw = true → t.hw.rqt.slot n = s.hw.rqt.slot n
          ∧ t.hw.rqt.answer = s.hw.rqt.answer.map fun a => { a with failHeld := true }))
    ∧ cancelsRemoved s t p
    ∧ ((∀ n o, onHome s p n o → (s.hw.rqt.slot n).state = .waiting → acceptInFlight n s.hw = false) →
        t.hw.rqt.answer = s.hw.rqt.answer)

/-- The slots that an effect on the waits at home `p` leaves as they were (R93 to R96, R156). -/
def otherSlotsKept (s t : State) (p : StationId) : Prop :=
  ∀ n, ((s.hw.rqt.slot n).aborted = true ∨ (s.hw.rqt.slot n).homedAt p = false
      ∨ ((s.hw.rqt.slot n).state ≠ .waiting ∧ (s.hw.rqt.slot n).state ≠ .cancelling)) →
    t.hw.rqt.slot n = s.hw.rqt.slot n

/-- A client flush has started (R155): slot entries removed, slots aborted, RESULTs and NOTICEs removed, the hold
table emptied, lock REASSERTs removed with their count, the PURGE placed, and nothing else in the tracker, the
lists and the queue. -/
def flushStarted (s t : State) : Prop :=
  t.hw.lbc.normal = s.hw.lbc.normal.filter (fun x => !x.kind.isSlot)
    ∧ (∀ n, (s.hw.rqt.slot n).state = .idle → t.hw.rqt.slot n = s.hw.rqt.slot n)
    ∧ (∀ n, (s.hw.rqt.slot n).state ≠ .idle → t.hw.rqt.slot n =
        { s.hw.rqt.slot n with
          aborted := true, waitTimer := none, backoffTimer := none, cause := none, ending := false
          owed := (s.hw.rqt.slot n).owed || selfOutstanding s.hw.id (s.hw.rqt.slot n) })
    ∧ t.hw.cqu.queue = s.hw.cqu.queue.filter (· = .station)
    ∧ (∀ n, t.hw.cqu.notice n = false) ∧ t.hw.cqu.events = s.hw.cqu.events
    ∧ t.hw.cqu.lines = s.hw.cqu.lines
    ∧ t.hw.rqt.holds = []
    ∧ t.hw.lbc.priority =
        s.hw.lbc.priority.filter (fun x => !(x.kind = .reassert && !x.endFlag)) ++ [{ kind := .purge }]
    ∧ t.hw.rqt.outstanding =
        s.hw.rqt.outstanding - s.hw.lbc.priority.countP (fun x => x.kind = .reassert && !x.endFlag)
    ∧ t.hw.rqt.homes = s.hw.rqt.homes ∧ t.hw.rqt.phase = s.hw.rqt.phase
    ∧ t.hw.rqt.answer = s.hw.rqt.answer ∧ t.hw.rqt.waitLimits = s.hw.rqt.waitLimits
    ∧ t.hw.rqt.responses = s.hw.rqt.responses
    ∧ t.hw.lbc.record = s.hw.lbc.record ∧ t.hw.lbc.pointer = s.hw.lbc.pointer

/-- A hold the walk of home `p` still has to send (R143, step 1). -/
def walkerOwes (p : StationId) (e : Hold) : Prop :=
  homeOf e.lock = p ∧ (e.state = .held ∨ e.state = .downgrading) ∧ e.mark = false

/-- The order of the walk: the lowest lock first, and the lowest slot first among those on one lock (R143). -/
def walksBefore (l : LockId) (n : SlotId) (k : LockId) (m : SlotId) : Prop := l < k ∨ (l = k ∧ n < m)

/-- The walker has placed `new` at the tail of the priority list `listed`, for the head of its list, from the
holds `holds` (R143): each REASSERT carries a hold owed, marked with it, the lowest lock first and the lowest
slot first among those, before every hold still owed; the closing one comes once, last, when no hold is owed
any more, and with it the phase CLOSING; each counts as outstanding; while the walker may go on it has
stopped at four. -/
def walkerPlaced (holds : List (Nat × Hold)) (listed : List Transaction) (count : Nat) (h : Hw)
    (new : List Transaction) : Prop :=
  h.lbc.priority = listed ++ new ∧ h.rqt.outstanding = count + new.length
    ∧ unmarked h.rqt.holds = unmarked holds
    ∧ (∀ p ∈ holds, p.2.mark = true → p ∈ h.rqt.holds)
    ∧ new.Pairwise (fun x y => x.endFlag = false ∧ (y.endFlag = true ∨ walksBefore x.lock x.slot y.lock y.slot))
    ∧ (∀ x ∈ new, x.endFlag = false →
        (∃ p ∈ holds, h.rqt.homes.head? = some (homeOf p.2.lock) ∧ walkerOwes (homeOf p.2.lock) p.2
          ∧ x = { kind := .reassert, slot := p.2.slot, mode := p.2.mode, lock := p.2.lock }
          ∧ (p.1, { p.2 with mark := true }) ∈ h.rqt.holds)
        ∧ ∀ e ∈ h.rqt.holds, walkerOwes (homeOf x.lock) e.2 → walksBefore x.lock x.slot e.2.lock e.2.slot)
    ∧ (∀ x ∈ new, x.endFlag = true → ∃ p, h.rqt.homes.head? = some p
        ∧ x = { kind := .reassert, endFlag := true, lock := lockAt p 0 } ∧ h.rqt.phase = some .closing
        ∧ ∀ e ∈ h.rqt.holds, ¬walkerOwes p e.2)
    ∧ (h.scu.flushing = true → new = [])
    ∧ (h.scu.station.present = true → h.scu.flushing = false → h.rqt.homes ≠ [] →
        h.rqt.phase = some .sending → 4 ≤ h.rqt.outstanding)

/-- The walk of the head home has begun or goes on with `new` placed: CLOSING once the closing REASSERT is placed,
SENDING before (R143). -/
def walkBegun (h : Hw) (new : List Transaction) : Prop :=
  h.rqt.phase = some (if ∃ x ∈ new, x.endFlag = true then .closing else .sending)

/-- The walk after a moment at which the walker acts, with `new` placed, from the phase `was` on (R143): in SENDING it
goes on; in CLOSING, and with no home to walk, nothing is placed and the phase stays. -/
def walkGoesOn (was : Option WalkerPhase) (h : Hw) (new : List Transaction) : Prop :=
  (was = some .sending → walkBegun h new) ∧ (was ≠ some .sending → new = [] ∧ h.rqt.phase = was)

/-- A priority list without the REASSERTs to home `p`. -/
def withoutReasserts (p : StationId) (l : List Transaction) : List Transaction :=
  l.filter fun x => ¬(x.kind = .reassert ∧ homeOf x.lock = p)

/-- How many REASSERTs to home `p` a priority list holds. -/
def reassertsListed (p : StationId) (l : List Transaction) : Nat :=
  l.countP fun x => x.kind = .reassert ∧ homeOf x.lock = p

/-- The walker's phase, count and REASSERTs are as they were. -/
def sameWalkBut (h t : Hw) : Prop :=
  t.rqt.phase = h.rqt.phase ∧ t.rqt.outstanding = h.rqt.outstanding ∧ t.lbc.priority = h.lbc.priority

/-- A hold table some of whose reservations, and nothing else, are gone (R81). -/
def reservationsGone (old new : List (Nat × Hold)) : Prop :=
  new.Sublist old ∧ ∀ e ∈ old, e.2.state ≠ .reserved → e ∈ new

/-- From `s` to `t` the operation of the entry's slot on the entry's lock has ended (R81). -/
def waitEnded (s t : State) (e : Hold) : Prop :=
  (s.hw.rqt.slot e.slot).state ≠ .done ∧ (t.hw.rqt.slot e.slot).state = .done
    ∧ ∃ o, (s.hw.rqt.slot e.slot).operation = some o ∧ o.lock = e.lock

/-- The reservations of the hold table of `s`, in the table `holds` that the waits ended on the way to `t` leave: those
of the ended waits are gone, and every other one stands as it was (R81, step 2; R93, R95, R96). -/
def reservationsSettled (s t : State) (holds : List (Nat × Hold)) : Prop :=
  ∀ e ∈ s.hw.rqt.holds, e.2.state = .reserved →
    (waitEnded s t e.2 → ∀ f ∈ holds, ¬(f.2.slot = e.2.slot ∧ f.2.lock = e.2.lock))
    ∧ (¬waitEnded s t e.2 → e ∈ holds)

/-- The route of an entry (R106): a RESULT and a NOTICE by the route of their slot, the STATION entry by the station
route. -/
def routedTo (c : Scu) : QueueEntry → Route
  | .result n .. | .notice n => c.routes.get n
  | .station => c.stationRoute

/-- The record opened at a win (R31). -/
def recordOpened (w : StationId) (round : Round) (entry : Option Transaction) : TxRecord :=
  { winner := w, round, role := if entry.isSome then .initiator else .observer, entry
    words := none, presence := none, responded := none, response := none, voidSeen := false
    phase := .request, error := false, lrsp := false, lstall := false, stallSeen := false }

/-- What the owner of the winning entry does at the win: a QUEUED_OUT slot goes ON_BUS (R80), the own GRANT
engages the home (R23); nothing else of the blocks changes. -/
def winnerTold (s t : State) (entry : Option Transaction) : Prop :=
  (∀ x, entry = some x → x.kind.isSlot = true → (s.hw.rqt.slot x.slot).state = .queuedOut →
      t.hw.rqt = s.hw.rqt.setSlot x.slot { s.hw.rqt.slot x.slot with state := .onBus })
    ∧ ((∀ x, entry = some x → x.kind.isSlot = true → (s.hw.rqt.slot x.slot).state ≠ .queuedOut) →
      t.hw.rqt = s.hw.rqt)
    ∧ (∀ x, entry = some x → x.kind = .grant → t.hw.htu = engagedBy .grant s.hw.htu)
    ∧ ((∀ x, entry = some x → x.kind ≠ .grant) → t.hw.htu = s.hw.htu)
    ∧ t.hw.cqu = s.hw.cqu ∧ sameOutside s.hw t.hw

/-- The winner's LARB line reads released in a phase: no other station asserts it, and this station holds it only
as the winner (R31, R35). -/
def larbReleased (own : StationId) (r : TxRecord) (o : Lines) : Prop :=
  o.larb.getLsbD r.winner.val = false ∧ ¬(r.role = .initiator ∧ r.winner = own)

/-- The record `r'` has noted what the observation phase can note of a void (R34, R35): LVOID read, and the winner's
LARB line released, which is an error of the winner; without either, and without an error found before, it
notes nothing. -/
def voidNoted (own : StationId) (r r' : TxRecord) (o : Lines) : Prop :=
  (o.lvoid = true ∨ larbReleased own r o ∨ r.voidSeen = true → r'.voidSeen = true)
    ∧ (r'.error = true ↔ r.error = true ∨ larbReleased own r o)
    ∧ (o.lvoid = false → r'.error = false → r'.voidSeen = r.voidSeen)

/-! ### What the home does with its offers and its stations -/

/-- The lock has no offer due (R13): its queue is empty, or its head conflicts with its holders, or no holder entry
is free. -/
def noOfferDue (i : LockIndex) (h : Hw) : Prop :=
  ∀ w, headWaiter i h.htu = some w →
    (∃ e ∈ h.htu.holders, e.index = i ∧ ¬(w.mode = .shared ∧ e.mode = .shared))
      ∨ 512 ≤ h.htu.holders.length

/-- From `h` to `g` the home has offered waiters of some locks, each from the head of its queue (R10, R11): each
that left stands OFFERED at the end of the holder table; an own slot's offer was delivered internally (R17),
another station's GRANT is listed and counted as posted, or the offer stands in the backlog (R14). -/
def offersMade (locks : LockIndex → Prop) (h g : Hw) : Prop :=
  let key (e : Holder) : Waiter := { index := e.index, station := e.station, slot := e.slot, mode := e.mode }
  ∃ (new : List Holder) (answers : List Claim) (placed : List Transaction),
    g.htu.holders = h.htu.holders ++ new ∧ (∀ e ∈ new, e.state = .offered ∧ locks e.index)
    ∧ (∀ i, h.htu.waiters.filter (·.index = i) =
        (new.filter (·.index = i)).map key ++ g.htu.waiters.filter (·.index = i))
    ∧ claimsReceived answers h.htu g.htu ∧ g.lbc.priority = h.lbc.priority ++ placed
    ∧ (∀ e ∈ new, e.station = h.id → e.posted = none
        ∧ ∃ accepted, .internalOutcome e.slot (lockAt h.id e.index) e.mode accepted ∈ answers)
    ∧ (∀ e ∈ new, e.station ≠ h.id → e.posted = some true ∨ e.posted = some false)
    ∧ g.htu.posted = h.htu.posted + new.countP (·.posted = some true)
    ∧ placed.filter (·.kind = .grant) =
        (new.filter (·.posted = some true)).map (fun e => grantOf h.id (key e))
    ∧ g.htu.backlog = h.htu.backlog ++ (new.filter (·.posted = some false)).map key

/-- The self-homed responses handed for slot `n`, up to `k` of them, have been taken from `h` on, the oldest first, each
as its own command takes it. -/
def responsesTaken (n : SlotId) : Nat → Hw → Hw → Prop
  | 0, h, t => t = h
  | k + 1, h, t =>
    ∃ u : State, exec (.selfHomedResponse n) { hw := h, pending := [] } = .next u ∧ responsesTaken n k u.hw t

/-- The row of R90 that answers ACCEPT: not while flushing, and the slot WAITING with an ACQUIRE for the lock in the
mode. -/
def acceptsOffer (n : SlotId) (l : LockId) (m : Mode) (h : Hw) : Prop :=
  h.scu.flushing = false ∧ (h.rqt.slot n).state = .waiting
    ∧ ∃ o, (h.rqt.slot n).operation = some o ∧ o.op = .acquire ∧ o.lock = l ∧ o.mode = some m

/-- What the Request Tracker does with an internal offer, from `h` to `t` (R92): by the rows of R90, ACCEPT makes the
entry HELD in the mode of the offer, ends the ACQUIRE with ACQUIRED, the slot DONE and its RESULT appended, and lets
the walker act (R143); DECLINE leaves slot and hold as they are. In both the answer comes back to the home as an
internal GRANT outcome (R69), and nothing else changes. -/
def offerAnswered (n : SlotId) (l : LockId) (m : Mode) (h t : Hw) : Prop :=
  let held := updateHold n l (fun e => { e with state := .held, mode := m }) h.rqt.holds
  (acceptsOffer n l m h →
    t.htu = received (.internalOutcome n l m true) h.htu
    ∧ t.rqt.slot n = (h.rqt.slot n).ended ∧ sameSlotsBut n h.rqt t.rqt
    ∧ t.cqu = (appendEntry (.result n .acquire l (some m) .acquired .none) h).cqu
    ∧ (∃ new, walkGoesOn h.rqt.phase t new ∧ walkerPlaced held h.lbc.priority h.rqt.outstanding t new)
    ∧ t = { h with
        htu := t.htu, cqu := t.cqu, lbc := { h.lbc with priority := t.lbc.priority }
        rqt := { h.rqt with
          slots := t.rqt.slots, holds := t.rqt.holds, phase := t.rqt.phase
          outstanding := t.rqt.outstanding } })
  ∧ (¬acceptsOffer n l m h → t = { h with htu := received (.internalOutcome n l m false) h.htu })

/-- The home has made the offer `e` of a lock to the head of its queue, from `h` to `t` (R10, R11): the head is
compatible and a holder entry is free; its waiter entry becomes the OFFERED one. An own slot's offer is answered by
the Request Tracker (R17, R92), after the self-homed responses handed for the slot (log 11); another station's is
posted, or stands in the backlog while 8 GRANTs are posted (R14). -/
def offerMade (e : Holder) (h t : Hw) : Prop :=
  let w : Waiter := { index := e.index, station := e.station, slot := e.slot, mode := e.mode }
  let moved : Htu := { h.htu with holders := h.htu.holders ++ [e], waiters := h.htu.waiters.erase w }
  headWaiter e.index h.htu = some w ∧ e.state = .offered
    ∧ (∀ f ∈ h.htu.holders, f.index = e.index → e.mode = .shared ∧ f.mode = .shared)
    ∧ h.htu.holders.length < 512
    ∧ (e.station = h.id → e.posted = none
        ∧ ∃ c, responsesTaken e.slot h.rqt.responses.length { h with htu := moved } c
          ∧ offerAnswered e.slot (lockAt h.id e.index) e.mode c t)
    ∧ (e.station ≠ h.id → h.htu.posted < 8 → e.posted = some true
        ∧ t = { h with
            htu := { moved with posted := h.htu.posted + 1 }
            lbc := { h.lbc with priority := h.lbc.priority ++ [grantOf h.id w] } })
    ∧ (e.station ≠ h.id → 8 ≤ h.htu.posted → e.posted = some false
        ∧ t = { h with htu := { moved with backlog := h.htu.backlog ++ [w] } })

/-- From `h` to `t` the home has made the offers of a list, one after another, and nothing else but to its
stalled-lock list. -/
def offersTaken : List Holder → Hw → Hw → Prop
  | [], h, t => ∃ stalled, t = { h with htu := { h.htu with stalled } }
  | e :: es, h, t =>
    ∃ stalled u, offerMade e { h with htu := { h.htu with stalled } } u ∧ offersTaken es u t

/-- The locks a decision's changes touch (R9). -/
def changesLock (c : Changes) (i : LockIndex) : Prop :=
  (∃ w ∈ c.dropWaiters, w.index = i) ∨ (∃ e ∈ c.dropHolders, e.index = i)
    ∨ (∃ e, c.addHolder = some e ∧ e.index = i) ∨ (∃ w, c.addWaiter = some w ∧ w.index = i)
    ∨ ∃ e, c.share = some e ∧ e.index = i

/-- From `b` to `t` a claim that changed some locks has been followed by its evaluations (R9; R54, steps 4 and 5): a
home that serves has evaluated them and then the stalled locks, while a holder entry was free (R12, R13);
any other home, and a claim that changed no lock, evaluates nothing. -/
def evaluatedAfter (locks : LockIndex → Prop) (b t : Hw) : Prop :=
  let visited (i : LockIndex) : Prop := locks i ∨ i ∈ b.htu.stalled
  (b.home = .serving → (∃ i, locks i) →
      offersMade visited b t ∧ (∃ new, offersTaken new b t) ∧ (∀ i, visited i → noOfferDue i t)
      ∧ (t.htu.stalled ≠ [] → 512 ≤ t.htu.holders.length))
    ∧ (b.home ≠ .serving ∨ (∀ i, ¬locks i) → t = b)
    ∧ t.htu.engaged = b.htu.engaged ∧ t.htu.purge = b.htu.purge ∧ t.htu.decision = b.htu.decision
    ∧ t.htu.awaited = b.htu.awaited ∧ t.htu.rebuildTimer = b.htu.rebuildTimer
    ∧ t.lbc.record = b.lbc.record ∧ t.lbc.pointer = b.lbc.pointer ∧ sameOutside b t

/-- Each GRANT to station `p` that has left the priority list has lowered the posted count by one (R15, R16), where
no two of them are to one client for one lock. -/
def postedLowered (h t : Hw) (p : StationId) : Prop :=
  ((h.lbc.priority.filter fun x => x.kind = .grant ∧ x.target = p).map fun x => (x.lock, x.targetSlot)).Nodup →
    t.htu.posted = h.htu.posted - (h.lbc.priority.length - t.lbc.priority.length)

/-- The walk of a purge of station `p` has been made (R19), from `h` to `t`: its entries are gone and others stand,
those removed are counted and their locks touched; the GRANTs of its posted offers have left the priority list,
each lowering the posted count by one (R15), and its other offers the backlog (R16). -/
def stationWalked (h t : Hw) (p : StationId) (g : Purge) : Prop :=
  let offer (posted : Bool) (i : LockIndex) (n : SlotId) : Prop :=
    ∃ e ∈ h.htu.holders, e.station = p ∧ e.state = .offered ∧ e.posted = some posted ∧ e.index = i
      ∧ e.slot = n
  let withdrawn (x : Transaction) : Prop :=
    x.kind = .grant ∧ x.target = p ∧ ∃ i, x.lock = lockAt h.id i ∧ offer true i x.targetSlot
  t.htu.holders = h.htu.holders.filter (·.station ≠ p)
    ∧ t.htu.waiters = h.htu.waiters.filter (·.station ≠ p)
    ∧ g.removed = h.htu.waiters.countP (·.station = p) + h.htu.holders.countP (·.station = p)
    ∧ (∀ i, i ∈ g.touched ↔ (∃ w ∈ h.htu.waiters, w.station = p ∧ w.index = i)
        ∨ ∃ e ∈ h.htu.holders, e.station = p ∧ e.index = i)
    ∧ t.htu.posted ≤ h.htu.posted ∧ postedLowered h t p
    ∧ t.lbc.priority.Sublist h.lbc.priority ∧ (∀ x ∈ h.lbc.priority, x ∈ t.lbc.priority ↔ ¬withdrawn x)
    ∧ t.htu.backlog.Sublist h.htu.backlog
    ∧ ∀ w ∈ h.htu.backlog, w ∈ t.htu.backlog ↔ ¬(w.station = p ∧ offer false w.index w.slot)

/-- The oldest backlog offers posted, until 8 GRANTs are posted or the backlog is empty (R14; R21, step 2). -/
def refilled (h : Hw) : Hw :=
  let posts := h.htu.backlog.take (8 - h.htu.posted)
  { h with
    htu := { h.htu with
      backlog := h.htu.backlog.drop (8 - h.htu.posted), posted := h.htu.posted + posts.length
      holders :=
        h.htu.holders.map fun e =>
          if ∃ w ∈ posts, isOfferTo w.index w.station w.slot e = true then { e with posted := some true }
          else e }
    lbc := { h.lbc with priority := h.lbc.priority ++ posts.map (grantOf h.id) } }

/-- The EVICT that the end of purge `g` calls for at the tail of the priority list, where something was removed and
none is listed (R22; R21, step 1). -/
def evictQueued (g : Purge) (h : Hw) : Hw :=
  let listed := ∃ x ∈ h.lbc.priority, x.kind = .evict ∧ x.target = g.station
  if g.evict = true ∧ 0 < g.removed ∧ ¬listed then
    { h with lbc := { h.lbc with priority := h.lbc.priority ++ [{ kind := .evict, target := g.station }] } }
  else h

/-- The home after steps 1, 2 and 4 of the end of purge `g` (R21): the EVICT, behind it the GRANTs of the offers
posted, and the home free. -/
def purgeClosed (g : Purge) (h : Hw) : Hw :=
  let q := refilled (evictQueued g h)
  { q with htu := { q.htu with purge := none, engaged := .free } }

/-- From `b` to `t` the home has applied the changes of a decision, in the order of R54: the tables changed, the offer
of a removed OFFERED entry withdrawn (R16), from the backlog, or with its GRANT, in whose place the oldest
backlog offer is posted (R15), and the locks changed evaluated. -/
def decisionMade (c : Changes) (b t : Hw) : Prop :=
  let u := b.htu.change c
  let after (v : Htu) (l : Lbc) : Prop := evaluatedAfter (changesLock c) { b with htu := v, lbc := l } t
  let offers := c.dropHolders.filter fun e => e.state = .offered
  (offers = [] → after u b.lbc)
    ∧ ∀ e, offers = [e] →
      let grant (y : Transaction) : Prop := y.kind = .grant ∧ y.target = e.station ∧ y.targetSlot = e.slot
        ∧ y.lock = lockAt b.id e.index
      (e.posted = none → after u b.lbc)
      ∧ (e.posted = some false →
          after
            { u with
              backlog :=
                u.backlog.filter fun w => ¬(w.index = e.index ∧ w.station = e.station ∧ w.slot = e.slot) }
            b.lbc)
      ∧ (e.posted = some true → (∃ y ∈ b.lbc.priority, grant y) → b.htu.purge = none →
          b.htu.posted = 8 ∨ b.htu.backlog = [] →
          let q := refilled { b with
            htu := { u with posted := u.posted - 1 }
            lbc := { b.lbc with priority := b.lbc.priority.filter fun y => ¬grant y } }
          after q.htu q.lbc)

/-- The command that takes a claim (R51, R52, R64, R70, R18, R139). -/
def claimRow : Claim → Instr
  | .lockTransaction => .lockTransactionClaim
  | .selfRequest _ => .selfHomedRequest
  | .grantOutcome .. => .grantOutcome
  | .internalOutcome .. => .internalGrantOutcome
  | .purgeCause .. => .purgeCause
  | .rebuildExpiry => .rebuildTimerExpiry

/-- The head `c` of the list of a home that is free again, with `rest` behind it, comes to the home before anything
that reached it meanwhile (R53): a lock transaction engages it, any other claim is there to be taken. -/
def State.presented (s : State) (c : Claim) (rest : List Claim) : State :=
  let t : Htu := { s.hw.htu with claims := rest }
  let u : Htu := if c = .lockTransaction then engagedBy .transaction t else { t with arriving := c :: t.arriving }
  { s with hw := { s.hw with htu := u } }

/-- From `s` to `t` the home has taken up to `k` claims from the head of its list, one after another, each by its
own command, until one has engaged it or the list is empty (R53). -/
def claimsTaken : Nat → State → State → Prop
  | 0, s, t => t = s
  | k + 1, s, t =>
    match s.hw.htu.engaged, s.hw.htu.claims with
    | .free, c :: rest => ∃ u, exec (claimRow c) (s.presented c rest) = .next u ∧ claimsTaken k u t
    | _, _ => t = s

/-- From `s` to `t` a free home has taken up to `k` of the claims that have reached it, the oldest first, each by its
own command, until one has engaged it or none is left (R53). -/
def arrivalsTaken : Nat → State → State → Prop
  | 0, s, t => t = s
  | k + 1, s, t =>
    match s.hw.htu.engaged, s.hw.htu.arriving with
    | .free, c :: _ => ∃ u, exec (claimRow c) s = .next u ∧ arrivalsTaken k u t
    | _, _ => t = s

/-- From `s` to `t` a free home has taken every claim that had reached it, with those the taking brought (R53): each
taking makes at most one waiter and hands one response, each waiter makes one answer and each response one CANCEL,
which bounds their number. -/
def arrivalsSettled (s t : State) : Prop :=
  arrivalsTaken (3 * s.hw.htu.arriving.length + s.hw.htu.waiters.length + s.hw.rqt.responses.length) s t

/-- The state with other pending claims. -/
def State.withClaims (s : State) (claims : List Claim) : State :=
  { s with hw := { s.hw with htu := { s.hw.htu with claims } } }

/-- The command `c` ends the home's engagement: what it does with no claim waiting, and then the home takes the
claims that waited, with the claims `late` that the command brings standing behind them (R23, R53). -/
def takesWaiting (c : Instr) (s : State) (late : List Claim) : Prop :=
  ∃ u t arriving, exec c (s.withClaims []) = .next u ∧ exec c s = .next t
    ∧ u.hw.htu.arriving = arriving ++ late
    ∧ claimsTaken (s.hw.htu.claims.length + late.length)
        { u with
          hw := { u.hw with
            htu := { u.hw.htu with claims := s.hw.htu.claims ++ u.hw.htu.claims ++ late, arriving := arriving } } }
        t

/-- Station `p` has left the awaited set at a delivery (R137), beside the home's other values `u` and the events `ev`:
where that empties the set of a home that rebuilds, its timer stops, the station goes ONLINE, and ONLINE is
raised. -/
def unawaited (s t : State) (p : StationId) (u : Htu) (ev : EventSet) : Prop :=
  let awaits := s.hw.home = .rebuilding ∧ s.hw.htu.awaited.getLsbD p.val = true
  let left := s.hw.htu.awaited &&& ~~~(BitVec.twoPow 16 p.val)
  (¬awaits → t.hw.htu = u ∧ t.hw.scu = s.hw.scu ∧ t.hw.cqu.events = ev)
    ∧ (awaits → left ≠ 0 →
        t.hw.htu = { u with awaited := left } ∧ t.hw.scu = s.hw.scu ∧ t.hw.cqu.events = ev)
    ∧ (awaits → left = 0 →
        t.hw.htu = { u with awaited := 0, rebuildTimer := none }
        ∧ t.hw.scu = { s.hw.scu with station := .online }
        ∧ t.hw.cqu.events = { ev with online := true })

/-! ### The words of the queue head (R170) -/

/-- The result codes of R170, from 1 on. -/
def resultCodes : List ResultCode :=
  [.acquired, .wouldBlock, .refusedLimit, .voidLimit, .homeAbsent, .cancelled, .timedOut, .homeLost,
    .homeEvicted, .alreadyHeld, .noSpace, .released, .notHeld, .downgraded, .holdLost, .notExclusive]

/-- The details of R170, from 0 on. -/
def resultDetails : List ResultDetail :=
  [.none, .waitFull, .holdFull, .plain, .stale, .absent, .revoked, .held]

/-- The fields of the word of a RESULT, at the bits R170 gives them. -/
def resultFields (w : Word) (n : SlotId) (op : Op) (l : LockId) (m : Option Mode) (c : ResultCode)
    (d : ResultDetail) : Prop :=
  bits w 0 2 = 1 ∧ (bits w 2 5).toNat = n.val
    ∧ bits w 7 2 = (match op with | .acquire => 1 | .release => 2 | .downgrade => 3)
    ∧ bits w 9 2 = (match m with | none => 0 | some .shared => 1 | some .exclusive => 2)
    ∧ (bits w 11 12).toNat = l.val ∧ (bits w 23 5).toNat = resultCodes.idxOf c + 1
    ∧ (bits w 28 4).toNat = resultDetails.idxOf d

/-- The fields of the word of the STATION entry, at the bits R170 gives them. -/
def stationFields (w : Word) (ev : EventSet) : Prop :=
  let peer (p : Option StationId) : Nat := (p.map (·.val)).getD 0
  bits w 0 2 = 3
    ∧ w.getLsbD 2 = ev.joined ∧ w.getLsbD 3 = ev.online ∧ w.getLsbD 4 = ev.duplicateId
    ∧ w.getLsbD 5 = ev.peerJoined.isSome ∧ w.getLsbD 6 = ev.peerLeft.isSome
    ∧ w.getLsbD 7 = ev.peerLost.isSome ∧ w.getLsbD 8 = ev.evictedBy.isSome
    ∧ w.getLsbD 9 = ev.rebuildEvicted.isSome ∧ w.getLsbD 10 = ev.flushDone ∧ w.getLsbD 11 = ev.left
    ∧ (bits w 12 4).toNat = peer ev.peerJoined ∧ (bits w 16 4).toNat = peer ev.peerLeft
    ∧ (bits w 20 4).toNat = peer ev.peerLost ∧ (bits w 24 4).toNat = peer ev.evictedBy
    ∧ (bits w 28 4).toNat = peer ev.rebuildEvicted

/-! ### The ways of a cancel -/

/-- The rows of R79 and R89: what a cancel of cause `cause` does to the slot's ACQUIRE `o` when the command `c`
brings it, by the slot's state; `refusal` is the slot's refusal code after it. -/
def cancelRows (c : Instr) (s : State) (n : SlotId) (o : Operation) (cause : CancelCause)
    (refusal : RefusalCode) : Prop :=
  let r := s.hw.rqt.slot n
  let recorded (st : SlotState) : Host.Outcome State Fault Refusal :=
    .next { s with
      hw := s.hw.setSlot n
        { r with state := st, cause := some cause, waitTimer := none, refusal := refusal } }
  let ended (t : State) : Prop :=
    t.hw.rqt.slot n =
        { r with
          state := .done, cause := none, waitTimer := none, backoffTimer := none, refusal := refusal
          ending := false }
      ∧ t.hw.cqu.queue =
          s.hw.cqu.queue ++ [.result n o.op o.lock o.mode
            (match cause with | .client => .cancelled | .timeout => .timedOut) .none]
      ∧ t.hw.rqt.holds = withoutReservation n o.lock s.hw.rqt.holds
      ∧ sameSlotsBut n s.hw.rqt t.hw.rqt ∧ sameWalk s.hw.rqt t.hw.rqt ∧ t.hw.htu = s.hw.htu
      ∧ t.hw.lbc.priority = s.hw.lbc.priority ∧ t.hw.lbc.record = s.hw.lbc.record
      ∧ sameOutside s.hw t.hw
  (r.state = .queuedOut → slotEntryListed n s.hw = true → ∃ t, exec c s = .next t
      ∧ ended t ∧ t.hw.lbc.normal = s.hw.lbc.normal.filter (fun x => !isSlotEntry n x))
  ∧ (r.state = .queuedOut → slotEntryListed n s.hw = false → exec c s = recorded .onBus)
  ∧ (r.state = .onBus → r.cause = none → exec c s = recorded .onBus)
  ∧ (r.state = .backoff → ∃ t, exec c s = .next t ∧ ended t ∧ t.hw.lbc.normal = s.hw.lbc.normal)
  ∧ (r.state = .waiting → r.cause = none → acceptInFlight n s.hw = true →
      exec c s = recorded .waiting)
  ∧ (r.state = .waiting → r.cause = none → acceptInFlight n s.hw = false →
      ∃ t, exec c s = .next t
      ∧ t.hw.rqt.slot n =
          { r with state := .cancelling, cause := some cause, waitTimer := none, refusal := refusal }
      ∧ (homeOf o.lock ≠ s.hw.id → t.hw.htu = s.hw.htu
          ∧ t.hw.lbc.normal = s.hw.lbc.normal ++ [{ kind := .cancel, slot := n, lock := o.lock }])
      ∧ (homeOf o.lock = s.hw.id → t.hw.lbc = s.hw.lbc
          ∧ t.hw.htu =
              received
                (.selfRequest
                  { kind := .cancel, station := s.hw.id, slot := n, index := indexOf o.lock
                    mode := .shared, tryFlag := false, endFlag := false })
                s.hw.htu)
      ∧ sameSlotsBut n s.hw.rqt t.hw.rqt ∧ t.hw.rqt.holds = s.hw.rqt.holds
      ∧ sameWalk s.hw.rqt t.hw.rqt ∧ t.hw.cqu = s.hw.cqu ∧ sameOutside s.hw t.hw)

/-! ### What brings an outcome -/

/-- The open transaction is at its completion. -/
def atCompletion (s : State) (r : TxRecord) : Prop := s.hw.lbc.record = some r ∧ r.phase = .completion

/-- The transaction completes voided (R35): a void was seen before, this station has found an error, or LVOID is read
in the completion phase itself. -/
abbrev voided (r : TxRecord) (others : Lines) : Prop :=
  r.voidSeen = true ∨ r.error = true ∨ others.lvoid = true

/-- The outcome of the completion (R38). -/
def outcomeAt (r : TxRecord) (others : Lines) : BusOutcome := if voided r others then .void else settle r

/-- The open transaction is this station's own, of the entry `x`, and is at its completion; unless it is voided, its
words carry the entry. -/
def ownCompletion (s : State) (r : TxRecord) (x : Transaction) (others : Lines) : Prop :=
  atCompletion s r ∧ r.role = .initiator ∧ r.winner = s.hw.id ∧ r.entry = some x
    ∧ (¬voided r others → recordRequest r = some x)

/-- The open transaction is a peer's, carries `x`, is at its completion, and this station only observes it. -/
def peerCompletion (s : State) (r : TxRecord) (x : Transaction) : Prop :=
  atCompletion s r ∧ r.role = .observer ∧ r.winner ≠ s.hw.id ∧ recordRequest r = some x

/-- The command brings the outcome `o` of a slot's transaction `x`: its completion on the lockbus, or the response
to the self-homed request. -/
def bringsOutcome (c : Instr) (s : State) (x : Transaction) (o : BusOutcome) : Prop :=
  (∃ r others eventFirst, c = .completion others eventFirst ∧ ownCompletion s r x others
      ∧ outcomeAt r others = o)
    ∨ ∃ p, c = .selfHomedResponse x.slot ∧ s.hw.rqt.responses.find? (·.slot = x.slot) = some p
        ∧ p.kind = x.kind ∧ o = .answered p.response ∧ (s.hw.rqt.slot x.slot).owed = false

/-- The home is engaged by the lock transaction `x` from station `src`, which it answers in the open observation
phase, and has not decided it yet (R23, R51). -/
def lockClaim (s : State) (x : Transaction) (src : StationId) : Prop :=
  s.hw.htu.engaged = .transaction ∧ s.hw.htu.decision = none ∧ x.kind.isLock = true
    ∧ ∃ r w, s.hw.lbc.record = some r ∧ r.role = .responder ∧ r.phase = .observing ∧ r.words = some w
        ∧ readRequest w.1 w.2 = some x ∧ sourceField w.1 = src

/-! ### What this station drives -/

/-- The lines this station drives (R26, R27): none without an open record, and none for a transaction it only observes
in LISTENING or JOINING; the winner's LARB line to the end of the response phase (R31, R41); the request words of
its entry with their parity (R32); its presence bit while it is present (R33); LRSP and LSTALL as its record has
them (R33, R34, R41); as responder the response word with its parity (R37); and LVOID exactly after an error
it found itself, in the states that may assert it (R27, R35). -/
def linesDriven (h : Hw) : Prop :=
  let l := drivenLines h
  let own : BitVec 16 := BitVec.twoPow 16 h.id.val
  (h.lbc.record = none → l = idleLines)
    ∧ ∀ r, h.lbc.record = some r →
      let observing := r.phase = .observation ∨ r.phase = .observing
      (r.role = .observer → r.entry = none → r.lrsp = false → r.lstall = false →
        h.scu.station = .listening ∨ h.scu.station = .joining → l = idleLines)
      ∧ l.larb = (if r.role = .initiator ∧ r.phase ≠ .completion then own else 0)
      ∧ (l.lvoid = true ↔ r.error = true
          ∧ (h.scu.station.present = true ∨ (h.scu.station = .joining ∧ r.role = .initiator)))
      ∧ (l.lrsp = true ↔ r.lrsp = true ∧ (observing ∨ r.phase = .response))
      ∧ (l.lstall = true ↔ r.lstall = true ∧ observing)
      ∧ (r.phase = .request →
          (∀ x, r.entry = some x → l.ldat = requestWord0 h.id x ∧ l.lpar = parityOf (requestWord0 h.id x)
            ∧ requestLines h r true = { l with ldat := requestWord1 x, lpar := parityOf (requestWord1 x) })
          ∧ (r.entry = none → l.ldat = 0 ∧ l.lpar = 0 ∧ requestLines h r true = l))
      ∧ (observing → l.lpar = 0
          ∧ l.ldat = if h.scu.station.present = true then BitVec.zeroExtend 32 own else 0)
      ∧ (r.phase = .response →
          (r.role = .responder → ∀ y, ownResponse h = some y →
            l.ldat = responseWord y ∧ l.lpar = parityOf (responseWord y))
          ∧ (r.role ≠ .responder ∨ ownResponse h = none → l.ldat = 0 ∧ l.lpar = 0))
      ∧ (r.phase = .completion → l.ldat = 0 ∧ l.lpar = 0)

/-! ### Values after a reset -/

/-- The Request Tracker's slots at their reset value (R97, R164). -/
def Rqt.slotsReset (q : Rqt) : Prop :=
  ∀ n, (q.slot n).state = .idle ∧ (q.slot n).operation = none ∧ (q.slot n).attempts = 0
    ∧ (q.slot n).cause = none ∧ (q.slot n).waitTimer = none ∧ (q.slot n).backoffTimer = none
    ∧ (q.slot n).refusal = .none ∧ (q.slot n).aborted = false ∧ (q.slot n).owed = false

/-- The home's values in INACTIVE (R25, R55). -/
def Htu.inactive (t : Htu) : Prop :=
  t.holders = [] ∧ t.waiters = [] ∧ t.backlog = [] ∧ t.posted = 0 ∧ t.stalled = [] ∧ t.purge = none
    ∧ t.engaged = .free ∧ t.claims = [] ∧ t.arriving = [] ∧ t.decision = none ∧ t.awaited = 0
    ∧ t.rebuildTimer = none

/-- The values a station reset gives every block (R25, R50, R97, R111, R129, R153, R164, R168, R173). -/
def Hw.stationResetValues (h : Hw) : Prop :=
  (h.scu.station = .offline ∧ h.home = .inactive ∧ h.scu.flushing = false ∧ h.scu.frozen = false
      ∧ h.scu.listenTimer = none ∧ h.scu.configStatus = .none)
    ∧ (h.lbc.pointer = 15 ∧ h.lbc.normal = [] ∧ h.lbc.priority = [] ∧ h.lbc.record = none)
    ∧ h.htu.inactive
    ∧ (h.rqt.slotsReset ∧ h.rqt.holds = [] ∧ h.rqt.answer = none ∧ (∀ n, h.rqt.waitLimits.get n = 0)
        ∧ h.rqt.homes = [] ∧ h.rqt.phase = none ∧ h.rqt.outstanding = 0 ∧ h.rqt.responses = [])
    ∧ ((∀ p, h.mbu.member p = ⟨.absent, none⟩) ∧ h.mbu.beaconTimer = none ∧ h.mbu.wonMark = false)
    ∧ (h.cqu.queue = [] ∧ (∀ n, h.cqu.notice n = false) ∧ h.cqu.events = .empty
        ∧ ∀ n, h.cqu.lines.get n = ⟨0, .idle⟩ ∧ lineAsserted h n = false)

/-- The configuration fields at their defaults (R173). -/
def Scu.configDefaults (c : Scu) : Prop :=
  (∀ n, c.routes.get n = .line 0) ∧ c.stationRoute = .line 3 ∧ (∀ n, c.lineModes.get n = .level)
    ∧ c.backoffBase = 4 ∧ c.attemptLimit = 8 ∧ c.lossThreshold = 3

/-- The configuration fields, the station ID and the beacon period are the same. -/
def Scu.sameConfig (c d : Scu) : Prop :=
  c.id = d.id ∧ c.bpsel = d.bpsel ∧ c.routes = d.routes ∧ c.stationRoute = d.stationRoute
    ∧ c.lineModes = d.lineModes ∧ c.backoffBase = d.backoffBase ∧ c.attemptLimit = d.attemptLimit
    ∧ c.lossThreshold = d.lossThreshold

/-! ### The laws of the state -/

/-- The local hold table: positions 0 to 127, each used once, and never two entries with the same slot and
lock (R73, R174). -/
def holdTableLaw (t : List (Nat × Hold)) : Prop :=
  t.Pairwise (fun p q => p.1 < q.1 ∧ ¬(p.2.slot = q.2.slot ∧ p.2.lock = q.2.lock)) ∧ ∀ p ∈ t, p.1 < 128

/-- The station state's companions: POR_N holds the station OFFLINE (R180); the frozen mark is set, and the
own record is SELF, exactly out of OFFLINE (R112, R173); the flushing flag is set only in REBUILDING,
ONLINE and LEAVING (R130, note 1); the awaited set is empty out of REBUILDING and never holds the own ID
(R137); an OFFLINE station has no open transaction (R27), an INACTIVE home purges nobody (R18), and the
purges of a rebuild expiry have emptied the awaited set (R139). -/
def stationLaw (h : Hw) : Prop :=
  (h.port.porAsserted = true → h.scu.station = .offline)
    ∧ (h.scu.frozen = true ↔ h.scu.station ≠ .offline)
    ∧ (h.scu.station = .offline → h.mbu = .reset ∧ h.lbc.record = none)
    ∧ (h.scu.station ≠ .offline → h.mbu.member h.id = ⟨.self, none⟩)
    ∧ (h.scu.flushing = true → h.scu.station.present = true)
    ∧ (h.scu.station ≠ .rebuilding → h.htu.awaited = 0)
    ∧ h.htu.awaited.getLsbD h.id.val = false
    ∧ (h.home = .inactive → h.htu.purge = none)
    ∧ ∀ p, h.htu.purge = some p → p.rebuild = true → h.htu.awaited = 0

/-- The counts that have a ceiling: 8 GRANTs posted (R14), 4 REASSERTs outstanding (R141), 255 pulses owed on
a line (R108). -/
def countLaw (h : Hw) : Prop :=
  h.htu.posted ≤ 8 ∧ h.rqt.outstanding ≤ 4 ∧ ∀ n, (h.cqu.lines.get n).owed ≤ 255

/-- The entry is a RESULT of the slot. -/
def isResultOf (n : SlotId) (e : QueueEntry) : Bool :=
  match e with
  | .result m _ _ _ _ _ => m = n
  | .notice _ | .station => false

/-- The completion queue: at most one RESULT a slot, which is DONE and not aborted (R81, R98, R156); a NOTICE
exactly while the slot's mark is set (R100); the STATION entry exactly while the event set is not empty
(R103). Slots are aborted only while flushing, and then every one is IDLE or aborted (R156); a station in
LEAVING has only IDLE slots once its flush is over (R162), and only there is its LEAVE placed (R148). -/
def queueLaw (h : Hw) : Prop :=
  (∀ n, h.cqu.queue.countP (isResultOf n) ≤ 1
      ∧ (∀ e ∈ h.cqu.queue, isResultOf n e = true →
          (h.rqt.slot n).state = .done ∧ (h.rqt.slot n).aborted = false)
      ∧ h.cqu.queue.count (.notice n) = if h.cqu.notice n = true then 1 else 0)
    ∧ (h.cqu.queue.count .station = if h.cqu.events = .empty then 0 else 1)
    ∧ (∀ n, (h.rqt.slot n).aborted = true → h.scu.flushing = true)
    ∧ (h.scu.flushing = true → ∀ n, (h.rqt.slot n).state = .idle ∨ (h.rqt.slot n).aborted = true)
    ∧ (h.scu.station = .leaving → h.scu.flushing = false → ∀ n, (h.rqt.slot n).state = .idle)
    ∧ ∀ x, (x ∈ h.lbc.normal ∨ x ∈ h.lbc.priority ∨ entryOnBus h = some x) → x.kind = .leave →
        h.scu.station = .leaving

/-- The walker: it has a phase exactly while its list has a home, none in a station that is not present, and in
SENDING it has placed as many REASSERTs as it may (R141, R143). -/
def walkerLaw (h : Hw) : Prop :=
  (h.rqt.phase = none ↔ h.rqt.homes = [])
    ∧ (h.scu.station.present = false → h.rqt.phase = none)
    ∧ (h.scu.station.present = true → h.scu.flushing = false → h.rqt.phase = some .sending →
        4 ≤ h.rqt.outstanding)

/-- The home's tables hold at most 512 holder and 192 waiter entries (R5, R7), now and once the decision that
stands is applied. -/
def capacityLaw (h : Hw) : Prop :=
  h.htu.holders.length ≤ 512 ∧ h.htu.waiters.length ≤ 192
    ∧ ∀ d, h.htu.decision = some d → (h.htu.change d.changes).holders.length ≤ 512
        ∧ (h.htu.change d.changes).waiters.length ≤ 192

/-- The home's waits (R12, R13): at a home that serves, each lock with a waiter has its head in conflict, or stands in
the stalled-lock list, or is touched by the purge in progress, and with no purge a lock is stalled only while no
holder entry is free; a home that rebuilds has no waiter, no stalled lock and no decision to queue (R4, R57). -/
def offerLaw (h : Hw) : Prop :=
  (h.home = .serving → ∀ i w, headWaiter i h.htu = some w →
      (∃ e ∈ h.htu.holders, e.index = i ∧ ¬(w.mode = .shared ∧ e.mode = .shared))
        ∨ i ∈ h.htu.stalled ∨ ∃ g, h.htu.purge = some g ∧ i ∈ g.touched)
    ∧ (h.home = .serving → h.htu.purge = none → h.htu.stalled ≠ [] → 512 ≤ h.htu.holders.length)
    ∧ (h.home = .rebuilding → h.htu.waiters = [] ∧ h.htu.stalled = []
        ∧ ∀ d, h.htu.decision = some d → d.changes.addWaiter = none)

/-- At one home, one client, a slot of a station, has at most one holder entry on a lock (R5), no waiter entry beside it
(R56), and at most one entry that is a waiter or OFFERED (R8). -/
def clientOnce (t : Htu) : Prop :=
  ((t.waiters.map fun w => (w.index, w.station, w.slot))
      ++ t.holders.map fun e => (e.index, e.station, e.slot)).Nodup
    ∧ ((t.waiters.map fun w => (w.station, w.slot))
      ++ (t.holders.filter (·.state = .offered)).map fun e => (e.station, e.slot)).Nodup

/-- The home's records of one client (R5, R8), now and once the decision that stands is applied. -/
def clientLaw (h : Hw) : Prop :=
  clientOnce h.htu ∧ ∀ d, h.htu.decision = some d → clientOnce (h.htu.change d.changes)

/-- At one home, two holder entries of one lock are both SHARED: so a lock's entries are all SHARED or exactly
one EXCLUSIVE entry (R6). -/
def exclusiveLaw (es : List Holder) : Prop :=
  es.Pairwise fun a b => a.index = b.index → a.mode = .shared ∧ b.mode = .shared

/-- The open transaction is a lock transaction this station answers, in one of some phases. -/
def answering (h : Hw) (phases : BusPhase → Bool) : Prop :=
  ∃ r t, h.lbc.record = some r ∧ r.role = .responder ∧ phases r.phase = true
    ∧ recordRequest r = some t ∧ t.kind.isLock = true

/-- The phases in which a decision can stand: the taking of the claim to completion. -/
def BusPhase.decided : BusPhase → Bool
  | .observing | .response | .completion => true
  | .request | .observation => false

/-- The home's engagement as R23 gives it, with the place of a claim that a free home has not yet taken (log 5) and
of the decision on a transaction that engages it (log 6): a purge engages the home; a decision stands only while
the home is engaged by the transaction, and that is one this station answers, from the start of the observation
phase on (R33); a free home has no pending claim, and an engaged one has none outside its list (R53); a lock
transaction waits in the list, once, only while its observation phase is open and LSTALL asserted (R34); a
station answers only lock transactions and GRANTs, and a lock transaction it answers waits or engages the home;
an observer drives neither LRSP nor LSTALL; an own GRANT on the lockbus engages the home, and no GRANT stands
in the normal list; a rebuild expiry handed has stopped the timer, and an INACTIVE home has neither (R139). -/
def engagementLaw (h : Hw) : Prop :=
  (h.htu.purge.isSome = true → h.htu.engaged = .purge)
    ∧ (h.htu.decision.isSome = true → h.htu.engaged = .transaction)
    ∧ (h.htu.engaged = .transaction → answering h BusPhase.decided)
    ∧ (h.htu.engaged = .free → h.htu.claims = []) ∧ (h.htu.engaged ≠ .free → h.htu.arriving = [])
    ∧ .lockTransaction ∉ h.htu.arriving
    ∧ (.lockTransaction ∈ h.htu.claims →
        h.htu.engaged ≠ .transaction ∧ answering h (· = .observing)
          ∧ h.htu.claims.count .lockTransaction = 1 ∧ ∀ r, h.lbc.record = some r → r.lstall = true)
    ∧ (∀ r, h.lbc.record = some r → r.role = .responder → r.phase.decided = true)
    ∧ (∀ r, h.lbc.record = some r → r.role = .observer →
        r.entry = none ∧ r.lrsp = false ∧ r.lstall = false)
    ∧ (∀ r t, h.lbc.record = some r → r.role = .responder → recordRequest r = some t →
        (t.kind.isLock = true ∨ t.kind = .grant)
          ∧ (t.kind.isLock = true → .lockTransaction ∈ h.htu.claims ∨ h.htu.engaged = .transaction))
    ∧ (∀ r t, h.lbc.record = some r → r.role = .initiator → r.entry = some t → t.kind = .grant →
        h.htu.engaged = .grant)
    ∧ (∀ t ∈ h.lbc.normal, t.kind ≠ .grant)
    ∧ expiryOnce h.htu
    ∧ (h.home = .inactive → h.htu.rebuildTimer = none ∧ .rebuildExpiry ∉ h.htu.claims ++ h.htu.arriving)

/-- The home's law: its tables keep R6, now and once the decision that stands is applied, and its engagement
is lawful. -/
def homeLaw (h : Hw) : Prop :=
  exclusiveLaw h.htu.holders
    ∧ (∀ d, h.htu.decision = some d → exclusiveLaw (h.htu.change d.changes).holders)
    ∧ engagementLaw h

/-! ### What the port shows (R169, R172, R174 to R176) -/

/-- A mode as the slot status words and the completion entry show it. -/
def modeShown : Option Mode → Nat
  | none => 0
  | some .shared => 1
  | some .exclusive => 2

/-- The slot status words of a slot (R169), its counts in their ranges. -/
def slotStatusShown (h : Hw) (n : SlotId) : Prop :=
  let r := h.rqt.slot n
  let a := registerWord (.slotStatusA n) h
  let b := registerWord (.slotStatusB n) h
  let waits : Nat := (r.waitTimer.map fun k => (k + 999) / 1000).getD 0
  r.attempts ≤ 15 → revokedCount n h.rqt.holds ≤ 128 → waits ≤ 65535 →
    ((bits a 0 3).toNat = (match r.state with
        | .idle => 0 | .queuedOut => 1 | .onBus => 2 | .waiting => 3 | .backoff => 4
        | .cancelling => 5 | .done => 6)
      ∧ (bits a 3 2).toNat = (match r.operation.map (·.op) with
        | none => 0 | some .acquire => 1 | some .release => 2 | some .downgrade => 3)
      ∧ (bits a 5 2).toNat = modeShown (r.operation.bind fun o =>
          if o.op = .acquire then o.mode else (findHold n o.lock h.rqt.holds).map (·.mode))
      ∧ a.getLsbD 7 = (r.operation.map (·.tryFlag)).getD false
      ∧ (bits a 8 12).toNat = (r.operation.map (·.lock.val)).getD 0
      ∧ (bits a 20 3).toNat = (match r.refusal with
        | .none => 0 | .slotBusy => 1 | .stationNotReady => 2 | .badCommand => 3
        | .nothingToCancel => 4)
      ∧ (bits a 24 4).toNat = r.attempts)
    ∧ ((bits b 0 8).toNat = revokedCount n h.rqt.holds
      ∧ (bits b 8 2).toNat = (match r.cause with | none => 0 | some .client => 1 | some .timeout => 2)
      ∧ b.getLsbD 10 = r.waitTimer.isSome ∧ b.getLsbD 11 = r.backoffTimer.isSome
      ∧ b.getLsbD 12 = r.aborted ∧ b.getLsbD 13 = r.owed ∧ b.getLsbD 14 = h.cqu.notice n
      ∧ (bits b 16 16).toNat = waits)

/-- The six station status words (R172), the counts in their ranges. -/
def stationStatusShown (h : Hw) : Prop :=
  let w (k : Fin 6) : Word := registerWord (.stationStatus k) h
  let home (k : Nat) : Nat := (h.rqt.homes[k]?.map (·.val)).getD 0
  ((bits (w 0) 0 3).toNat = (match h.scu.station with
      | .offline => 0 | .listening => 1 | .joining => 2 | .rebuilding => 3 | .online => 4
      | .leaving => 5 | .duplicate => 6)
    ∧ (w 0).getLsbD 3 = h.scu.flushing ∧ (w 0).getLsbD 4 = h.scu.frozen
    ∧ (bits (w 0) 5 2).toNat = (match h.scu.commandStatus with
      | .none => 0 | .taken => 1 | .wrongState => 2)
    ∧ (bits (w 0) 7 2).toNat = (match h.scu.configStatus with
      | .none => 0 | .taken => 1 | .frozen => 2 | .range => 3)
    ∧ (bits (w 0) 9 4).toNat = h.scu.id.val ∧ (bits (w 0) 13 2).toNat = h.scu.bpsel.val
    ∧ (bits (w 0) 15 4).toNat = h.lbc.pointer.val ∧ (w 0).getLsbD 19 = h.mbu.wonMark
    ∧ (w 0).getLsbD 20 = h.port.srstAsserted)
  ∧ (h.lbc.normal.length ≤ 34 → h.lbc.priority.length ≤ 28 → h.cqu.queue.length ≤ 65 →
    (bits (w 1) 0 6).toNat = h.lbc.normal.length ∧ (bits (w 1) 8 6).toNat = h.lbc.priority.length
    ∧ (bits (w 1) 16 7).toNat = h.cqu.queue.length ∧ (w 1).getLsbD 23 = h.lbc.record.isSome
    ∧ ∀ k : LineId, (w 1).getLsbD (24 + k.val) = lineAsserted h k)
  ∧ (h.rqt.answer = none → w 2 = 0)
  ∧ (∀ a, h.rqt.answer = some a → (w 2).getLsbD 0 = true ∧ (bits (w 2) 1 5).toNat = a.slot.val
    ∧ (bits (w 2) 6 12).toNat = a.lock.val ∧ (w 2).getLsbD 18 = decide (a.mode = .exclusive)
    ∧ (w 2).getLsbD 19 = a.accept ∧ (w 2).getLsbD 20 = a.cancelToEnd)
  ∧ (h.rqt.outstanding ≤ 4 → h.rqt.homes.length ≤ 15 →
    (bits (w 3) 0 2).toNat = (match h.rqt.phase with | none => 0 | some .sending => 1 | some .closing => 2)
    ∧ (bits (w 3) 2 3).toNat = h.rqt.outstanding ∧ (bits (w 3) 8 4).toNat = h.rqt.homes.length
    ∧ (∀ k : Fin 8, (bits (w 4) (4 * k.val) 4).toNat = home k.val)
    ∧ ∀ k : Fin 7, (bits (w 5) (4 * k.val) 4).toNat = home (8 + k.val))

/-- One word of the local hold table view (R174). -/
def holdShown (h : Hw) (pos : Fin 128) : Prop :=
  let w := registerWord (.holdView pos) h
  holdTableLaw h.rqt.holds →
    ((∀ e, (pos.val, e) ∉ h.rqt.holds) → w = 0)
    ∧ ∀ e, (pos.val, e) ∈ h.rqt.holds →
      w.getLsbD 0 = true ∧ (bits w 1 12).toNat = e.lock.val ∧ (bits w 13 5).toNat = e.slot.val
      ∧ w.getLsbD 18 = decide (e.mode = .exclusive)
      ∧ (bits w 19 3).toNat = (match e.state with
        | .reserved => 0 | .held => 1 | .releasing => 2 | .downgrading => 3 | .revoked => 4)
      ∧ w.getLsbD 22 = e.mark

/-- The home table summary and the stalled-lock list view (R175), the counts in their ranges. -/
def homeShown (h : Hw) : Prop :=
  let w (k : Fin 4) : Word := registerWord (.homeSummary k) h
  let rebuilds : Nat := (h.htu.rebuildTimer.map fun k => (k + 99) / 100).getD 0
  (h.htu.posted ≤ 8 → (bits (w 0) 0 2).toNat = (match h.home with
      | .inactive => 0 | .rebuilding => 1 | .serving => 2)
    ∧ (w 0).getLsbD 2 = h.htu.purge.isSome
    ∧ (bits (w 0) 3 4).toNat = (h.htu.purge.map (·.station.val)).getD 0
    ∧ (bits (w 0) 8 4).toNat = h.htu.posted ∧ (bits (w 0) 16 8).toNat = min h.htu.claims.length 255)
  ∧ (h.htu.holders.length ≤ 512 → h.htu.waiters.length ≤ 192 →
    (bits (w 1) 0 10).toNat = h.htu.holders.length ∧ (bits (w 1) 16 8).toNat = h.htu.waiters.length)
  ∧ (h.htu.backlog.length ≤ 512 → h.htu.stalled.length ≤ 192 →
    (bits (w 2) 0 10).toNat = h.htu.backlog.length ∧ (bits (w 2) 16 8).toNat = h.htu.stalled.length
    ∧ (bits (w 2) 24 8).toNat = min ((h.htu.purge.map (·.removed)).getD 0) 255)
  ∧ (rebuilds ≤ 800 → bits (w 3) 0 16 = h.htu.awaited ∧ (bits (w 3) 16 10).toNat = rebuilds)
  ∧ ∀ pos : Fin 192,
      (bits (registerWord (.stalledView ⟨pos.val / 4, by omega⟩) h) (8 * (pos.val % 4)) 8).toNat
        = (h.htu.stalled[pos.val]?.map (·.val)).getD 0

/-- One word of the membership view (R176), the elapsed time in its range; the held bit of a stopped timer is 0
(log 30). -/
def memberShown (h : Hw) (p : StationId) : Prop :=
  let m := h.mbu.member p
  let w := registerWord (.membershipView p) h
  let elapsed : Nat := (m.timer.map (· / 100)).getD 0
  elapsed ≤ 1400 →
    (bits w 0 2).toNat = (match m.state with | .absent => 0 | .self => 1 | .present => 2 | .lost => 3)
    ∧ w.getLsbD 2 = m.timer.isSome ∧ w.getLsbD 3 = (m.timer.isSome && silenceHeld p h)
    ∧ (bits w 8 11).toNat = elapsed

end Sys2Proof.Machine
end

