-- ==== Sys2Proof/Certificates/Slice0/Obligations.lean ====
section
/-! DEFINITION. The statements for the provers. A statement about a command says what state it answers, for every
state and operands that meet its hypotheses; a block or field it names as unchanged is its frame. -/

open Sys2Proof Sys2Proof.Machine

/-! ### The queue of commands, the step and the tick -/

/-- A step takes the command at the front of the queue. -/
def Obligations.StepRunsFrontCommand : Prop :=
  ∀ (c : Instr) (rest : List Instr) (s : State),
    step { s with pending := c :: rest } = exec c { s with pending := rest }

/-- Every command answers a next state and leaves the queue alone. -/
def Obligations.CommandsLeaveTheQueue : Prop :=
  ∀ (c : Instr) (s : State), ∃ h, exec c s = .next { s with hw := h }

/-- The model's tick (log 3): an empty queue lets 1 µs pass. Timers that count down lose 1 µs, a silence timer
gains 1 µs unless it is held, a pulse in its asserted part goes to its gap (11.4), nothing else changes, and
exactly the expiries due, the end of a gap among them (R108), stand in the queue, each once: those of a timer that
counts down in its last µs, and those of a silence timer that reaches its limit. -/
def Obligations.IdleTickAdvancesTimers : Prop :=
  ∀ s : State, s.pending = [] → ∃ t, step s = .next t
    ∧ t.hw.scu = { s.hw.scu with listenTimer := s.hw.scu.listenTimer.map (· - 1) }
    ∧ t.hw.htu = { s.hw.htu with rebuildTimer := s.hw.htu.rebuildTimer.map (· - 1) }
    ∧ t.hw.mbu.beaconTimer = s.hw.mbu.beaconTimer.map (· - 1) ∧ t.hw.mbu.wonMark = s.hw.mbu.wonMark
    ∧ (∀ p, t.hw.mbu.member p =
        if silenceHeld p s.hw then s.hw.mbu.member p
        else { s.hw.mbu.member p with timer := (s.hw.mbu.member p).timer.map (· + 1) })
    ∧ (∀ n, t.hw.rqt.slot n =
        { s.hw.rqt.slot n with
          waitTimer := (s.hw.rqt.slot n).waitTimer.map (· - 1)
          backoffTimer := (s.hw.rqt.slot n).backoffTimer.map (· - 1) })
    ∧ t.hw.rqt.holds = s.hw.rqt.holds ∧ sameWalk s.hw.rqt t.hw.rqt
    ∧ t.hw.lbc = s.hw.lbc ∧ t.hw.port = s.hw.port
    ∧ t.hw.cqu.queue = s.hw.cqu.queue ∧ t.hw.cqu.notices = s.hw.cqu.notices
    ∧ t.hw.cqu.events = s.hw.cqu.events
    ∧ (∀ k, t.hw.cqu.lines.get k =
        { s.hw.cqu.lines.get k with
          phase :=
            if (s.hw.cqu.lines.get k).phase = .high then .gap else (s.hw.cqu.lines.get k).phase })
    ∧ t.pending.Nodup
    ∧ ∀ c, c ∈ t.pending ↔
        (c = .listenWindowExpiry ∧ ∃ k ≤ 1, s.hw.scu.listenTimer = some k)
        ∨ (c = .rebuildTimerExpiry ∧ ∃ k ≤ 1, s.hw.htu.rebuildTimer = some k)
        ∨ (c = .beaconTimerExpiry ∧ ∃ k ≤ 1, s.hw.mbu.beaconTimer = some k)
        ∨ (∃ p, c = .silenceTimerExpiry p false ∧ silenceHeld p s.hw = false
            ∧ ∃ k, (s.hw.mbu.member p).timer = some k ∧ lossLimit s.hw ≤ k + 1)
        ∨ (∃ n, c = .waitTimerExpiry n ∧ ∃ k ≤ 1, (s.hw.rqt.slot n).waitTimer = some k)
        ∨ (∃ n, c = .backoffTimerExpiry n ∧ ∃ k ≤ 1, (s.hw.rqt.slot n).backoffTimer = some k)
        ∨ ∃ k, c = .notifyPulse k ∧ (s.hw.cqu.lines.get k).phase = .gap

/-! ### Resets, straps and station commands -/

/-- The state after reset: every value the spec gives for power-on reset, the empty command queue (the model's own
field, log 22) and no response handed (log 21), and the laws of the state. -/
def Obligations.ResetStateValuesAndLaws : Prop :=
  State.reset.hw.stationResetValues ∧ State.reset.hw.scu.configDefaults
    ∧ State.reset.hw.scu.commandStatus = .none ∧ State.reset.pending = []
    ∧ holdTableLaw State.reset.hw.rqt.holds ∧ stationLaw State.reset.hw ∧ countLaw State.reset.hw
    ∧ homeLaw State.reset.hw ∧ queueLaw State.reset.hw ∧ walkerLaw State.reset.hw
    ∧ capacityLaw State.reset.hw ∧ offerLaw State.reset.hw ∧ clientLaw State.reset.hw

/-- R152: a power-on reset does everything a station reset does, returns the configuration to its defaults,
samples the straps and sets the command status to NONE; no other command than the release of POR_N
changes the sampled values (R179). That the word last read is kept is the model's choice (log 2); that no
response stays handed is DEDUCED (log 21). -/
def Obligations.PowerOnResetSamplesStraps : Prop :=
  (∀ (id : StationId) (bp : Fin 4) (s : State), ∃ t, exec (.powerOnReset id bp) s = .next t
    ∧ t.hw.stationResetValues ∧ t.hw.scu.configDefaults ∧ t.hw.scu.commandStatus = .none
    ∧ t.hw.scu.id = id ∧ t.hw.scu.bpsel = bp ∧ t.hw.port = { s.hw.port with porAsserted := true })
  ∧ ∀ (c : Instr) (s t : State), exec c s = .next t →
      (∀ id bp, c ≠ .powerOnReset id bp ∧ c ≠ .porNRelease id bp) →
      t.hw.scu.id = s.hw.scu.id ∧ t.hw.scu.bpsel = s.hw.scu.bpsel

/-- The reset pins. SRST_N: its assertion is a station reset in every state and is shown; its release ends the held
reset and changes nothing else, so an OFFLINE station stays OFFLINE (R151, R180). POR_N: its release takes the
straps present at that moment (R179); what the release of a pin that is not asserted does is the model's
choice (log 16): nothing; and so is that an assertion of SRST_N while it is asserted resets again (log 29), and
that the word last read is kept (log 2). That no response stays handed is DEDUCED (log 21). -/
def Obligations.ResetPins : Prop :=
  (∀ s : State,
    (∃ t, exec .stationReset s = .next t ∧ t.hw.stationResetValues ∧ t.hw.scu.sameConfig s.hw.scu
      ∧ t.hw.scu.commandStatus = .none ∧ t.hw.port = { s.hw.port with srstAsserted := true })
    ∧ exec .srstNRelease s =
        .next { s with hw := { s.hw with port := { s.hw.port with srstAsserted := false } } })
  ∧ ∀ (id : StationId) (bp : Fin 4) (s : State),
    (s.hw.port.porAsserted = true → exec (.porNRelease id bp) s =
      .next { s with
        hw := { s.hw with
          scu := { s.hw.scu with id := id, bpsel := bp }
          port := { s.hw.port with porAsserted := false } } })
    ∧ (s.hw.port.porAsserted = false → exec (.porNRelease id bp) s = .next s)

/-- R131: which station commands are taken and which are refused; a refused one changes nothing beyond the
command status; the RESET command is a station reset that keeps the configuration, the station ID, the beacon
period and the pins (R151, R171); the two reset pins leave the status NONE. That a reset leaves no response
handed is DEDUCED (log 21), and that it keeps the word last read is the model's choice (log 2). -/
def Obligations.StationCommandsByState : Prop :=
  (∀ s : State, s.hw.port.porAsserted = false →
    let refused : Host.Outcome State Fault Refusal :=
      .next { s with hw := { s.hw with scu := { s.hw.scu with commandStatus := .wrongState } } }
    let present := s.hw.scu.station = .rebuilding ∨ s.hw.scu.station = .online
    (s.hw.scu.station = .offline ∧ s.hw.port.srstAsserted = false →
      ∃ t, exec .join s = .next t ∧ t.hw.scu.commandStatus = .taken ∧ t.hw.scu.station = .listening)
    ∧ (¬(s.hw.scu.station = .offline ∧ s.hw.port.srstAsserted = false) → exec .join s = refused)
    ∧ (present → ∃ t, exec .leave s = .next t ∧ t.hw.scu.commandStatus = .taken
        ∧ t.hw.scu.station = .leaving)
    ∧ (¬present → exec .leave s = refused)
    ∧ (present ∧ s.hw.scu.flushing = false → ∃ t, exec .flush s = .next t
        ∧ t.hw.scu.commandStatus = .taken ∧ t.hw.scu.flushing = true)
    ∧ (¬(present ∧ s.hw.scu.flushing = false) → exec .flush s = refused)
    ∧ (∃ t, exec .reset s = .next t ∧ t.hw.stationResetValues ∧ t.hw.scu.commandStatus = .taken
        ∧ t.hw.scu.sameConfig s.hw.scu ∧ t.hw.port = s.hw.port)
    ∧ ∀ code, exec (.stationCommandInvalid code) s = refused)
  ∧ (∀ s : State, ∃ t, exec .stationReset s = .next t ∧ t.hw.scu.commandStatus = .none)
  ∧ ∀ (id : StationId) (bp : Fin 4) (s : State), ∃ t,
      exec (.powerOnReset id bp) s = .next t ∧ t.hw.scu.commandStatus = .none

/-- A JOIN taken: LISTENING, frozen, the own record SELF, the listen window started at 2P, and nothing else
(R132). -/
def Obligations.JoinStartsListening : Prop :=
  ∀ s : State, s.hw.port.porAsserted = false → s.hw.port.srstAsserted = false →
    s.hw.scu.station = .offline → ∃ t, exec .join s = .next t
    ∧ t.hw.scu =
        { s.hw.scu with
          station := .listening, frozen := true, commandStatus := .taken
          listenTimer := some (2 * Config.beaconPeriod s.hw.scu.bpsel) }
    ∧ t.hw.home = .inactive
    ∧ t.hw.mbu.member s.hw.id = ⟨.self, none⟩ ∧ (∀ p, p ≠ s.hw.id → t.hw.mbu.member p = s.hw.mbu.member p)
    ∧ t.hw.mbu.beaconTimer = s.hw.mbu.beaconTimer ∧ t.hw.mbu.wonMark = s.hw.mbu.wonMark
    ∧ t.hw.lbc = s.hw.lbc ∧ t.hw.htu = s.hw.htu ∧ t.hw.rqt = s.hw.rqt ∧ t.hw.cqu = s.hw.cqu
    ∧ t.hw.port = s.hw.port

/-- A LEAVE taken: LEAVING, the rebuild ended, and a flush started in its seven steps (R155; a mark already set
stays set, log 26) unless one runs, which then serves (R147). A purge of a rebuild expiry in progress stays in
progress (log 24). -/
def Obligations.LeaveStartsLeaving : Prop :=
  ∀ s : State, s.hw.port.porAsserted = false →
    (s.hw.scu.station = .rebuilding ∨ s.hw.scu.station = .online) → ∃ t, exec .leave s = .next t
    ∧ t.hw.scu = { s.hw.scu with station := .leaving, commandStatus := .taken, flushing := true }
    ∧ t.hw.home = .serving
    ∧ t.hw.htu = { s.hw.htu with awaited := 0, rebuildTimer := none }
    ∧ t.hw.mbu = s.hw.mbu ∧ t.hw.port = s.hw.port
    ∧ (s.hw.scu.flushing = true → t.hw.lbc = s.hw.lbc ∧ t.hw.rqt = s.hw.rqt ∧ t.hw.cqu = s.hw.cqu)
    ∧ (s.hw.scu.flushing = false → flushStarted s t)

/-- The seven steps of the start of a client flush (R155), by CRST_N, which is ignored where no flush may start,
and by the FLUSH command (R154); nothing else changes. An owed-response mark already set stays set (one bit,
log 26). -/
def Obligations.FlushStart : Prop :=
  (∀ s : State, ¬((s.hw.scu.station = .rebuilding ∨ s.hw.scu.station = .online)
      ∧ s.hw.scu.flushing = false) → exec .crstN s = .next s)
  ∧ ∀ s : State, (s.hw.scu.station = .rebuilding ∨ s.hw.scu.station = .online) →
      s.hw.scu.flushing = false →
      ∀ c, (c = .crstN ∨ (c = .flush ∧ s.hw.port.porAsserted = false)) → ∃ t, exec c s = .next t
        ∧ t.hw.scu =
            { s.hw.scu with
              flushing := true
              commandStatus := if c = .flush then .taken else s.hw.scu.commandStatus }
        ∧ flushStarted s t
        ∧ t.hw.htu = s.hw.htu ∧ t.hw.mbu = s.hw.mbu ∧ t.hw.port = s.hw.port

/-! ### Slot commands -/

/-- R75: the checks of a slot command in their order; a refusal sets the slot's refusal code and changes nothing
else; a command that passes every check leaves the code NONE. -/
def Obligations.SlotCommandChecks : Prop :=
  ∀ (s : State) (n : SlotId), s.hw.port.porAsserted = false →
    let refused (c : RefusalCode) : Host.Outcome State Fault Refusal :=
      .next { s with hw := s.hw.setSlot n { s.hw.rqt.slot n with refusal := c } }
    let r := s.hw.rqt.slot n
    let isAcquire := r.hasOp .acquire = true
    let toCancel := isAcquire ∧ (r.state = .queuedOut ∨ r.state = .backoff
      ∨ ((r.state = .waiting ∨ r.state = .onBus) ∧ r.cause = none))
    (∀ code, exec (.slotCommandInvalid n code) s = refused .badCommand)
    ∧ (∀ m f l, (modeField m = none ∨ lockField l = none) →
        exec (.acquire n m f l) s = refused .badCommand)
    ∧ (∀ l, lockField l = none →
        exec (.release n l) s = refused .badCommand ∧ exec (.downgrade n l) s = refused .badCommand)
    ∧ (¬slotsReady s →
        (∀ m f l, modeField m ≠ none → lockField l ≠ none →
          exec (.acquire n m f l) s = refused .stationNotReady)
        ∧ (∀ l, lockField l ≠ none → exec (.release n l) s = refused .stationNotReady
            ∧ exec (.downgrade n l) s = refused .stationNotReady)
        ∧ exec (.cancel n) s = refused .stationNotReady)
    ∧ (slotsReady s →
        (r.state ≠ .idle →
          (∀ m f l, modeField m ≠ none → lockField l ≠ none →
            exec (.acquire n m f l) s = refused .slotBusy)
          ∧ ∀ l, lockField l ≠ none → exec (.release n l) s = refused .slotBusy
              ∧ exec (.downgrade n l) s = refused .slotBusy)
        ∧ (r.state = .idle → ∀ l, lockField l ≠ none →
            (∀ m f, modeField m ≠ none → ∃ t, exec (.acquire n m f l) s = .next t
              ∧ (t.hw.rqt.slot n).refusal = .none)
            ∧ (∃ t, exec (.release n l) s = .next t ∧ (t.hw.rqt.slot n).refusal = .none)
            ∧ ∃ t, exec (.downgrade n l) s = .next t ∧ (t.hw.rqt.slot n).refusal = .none)
        ∧ (¬toCancel → exec (.cancel n) s = refused .nothingToCancel)
        ∧ (toCancel → ∃ t, exec (.cancel n) s = .next t ∧ (t.hw.rqt.slot n).refusal = .none))

/-- R76: the three ways an ACQUIRE taken is settled. An entry of an IDLE slot is HELD or REVOKED, the two states
the rule names. That an operation ended at once is recorded with its attempts at 0 is the model's reading
(log 19), and that a request that reaches a free own home is taken by its own command (log 5). -/
def Obligations.AcquireTaken : Prop :=
  ∀ (s : State) (n : SlotId) (mw : BitVec 2) (f : Bool) (lw : BitVec 13) (m : Mode) (l : LockId),
    slotsReady s → (s.hw.rqt.slot n).state = .idle → modeField mw = some m → lockField lw = some l →
    let limit := s.hw.rqt.waitLimits.get n
    let o : Operation := { op := .acquire, lock := l, mode := some m, tryFlag := f, waitLimit := limit }
    (∀ e, findHold n l s.hw.rqt.holds = some e → (e.state = .held ∨ e.state = .revoked) →
      ∃ t, exec (.acquire n mw f lw) s = .next t ∧ t.hw.rqt.holds = s.hw.rqt.holds
        ∧ endedAtOnce s t n o (.result n .acquire l (some m) .alreadyHeld
            (if e.state = .revoked then .revoked else .held)))
    ∧ (findHold n l s.hw.rqt.holds = none → 128 ≤ s.hw.rqt.holds.length →
      ∃ t, exec (.acquire n mw f lw) s = .next t ∧ t.hw.rqt.holds = s.hw.rqt.holds
        ∧ endedAtOnce s t n o (.result n .acquire l (some m) .noSpace .none))
    ∧ (findHold n l s.hw.rqt.holds = none → s.hw.rqt.holds.length < 128 →
      ∃ t, exec (.acquire n mw f lw) s = .next t
        ∧ t.hw.rqt.holds =
            insertHold { lock := l, slot := n, mode := m, state := .reserved, mark := false }
              s.hw.rqt.holds
        ∧ issuedToHome s t n o
            { kind := .acquire, slot := n, mode := m, tryFlag := f, lock := l }
            { kind := .acquire, station := s.hw.id, slot := n, index := indexOf l, mode := m, tryFlag := f
              endFlag := false }
            (if limit = 0 then none else some (1000 * limit.toNat))
        ∧ t.hw.lbc.priority = s.hw.lbc.priority ∧ sameWalk s.hw.rqt t.hw.rqt)

/-- R77: a RELEASE taken is settled by the slot's hold entry. The record of an operation ended at once is log 19;
that a request that reaches a free own home is taken by its own command is log 5. -/
def Obligations.ReleaseTaken : Prop :=
  ∀ (s : State) (n : SlotId) (lw : BitVec 13) (l : LockId),
    slotsReady s → (s.hw.rqt.slot n).state = .idle → lockField lw = some l →
    let o : Operation := { op := .release, lock := l, mode := none, tryFlag := false, waitLimit := 0 }
    (findHold n l s.hw.rqt.holds = none →
      ∃ t, exec (.release n lw) s = .next t ∧ t.hw.rqt.holds = s.hw.rqt.holds
        ∧ endedAtOnce s t n o (.result n .release l none .notHeld .none))
    ∧ (∀ e, findHold n l s.hw.rqt.holds = some e → e.state = .revoked →
      ∃ t, exec (.release n lw) s = .next t ∧ t.hw.rqt.holds = removeHold n l s.hw.rqt.holds
        ∧ endedAtOnce s t n o (.result n .release l (some e.mode) .released .revoked))
    ∧ (∀ e, findHold n l s.hw.rqt.holds = some e → e.state = .held →
      ∃ t, exec (.release n lw) s = .next t
        ∧ t.hw.rqt.holds =
            updateHold n l (fun x => { x with state := .releasing, mode := e.mode }) s.hw.rqt.holds
        ∧ issuedToHome s t n o { kind := .release, slot := n, lock := l }
            { kind := .release, station := s.hw.id, slot := n, index := indexOf l, mode := .shared
              tryFlag := false, endFlag := false }
            (s.hw.rqt.slot n).waitTimer
        ∧ t.hw.lbc.priority = s.hw.lbc.priority ∧ sameWalk s.hw.rqt t.hw.rqt)

/-- R78: a DOWNGRADE taken is settled by the slot's hold entry. In the last row the entry becomes DOWNGRADING and
keeps its mode; the walker may then mark holds and place REASSERTs (R143), so the hold table is named up to
marks. The record of an operation ended at once is log 19; that a request that reaches a free own
home is taken by its own command is log 5. -/
def Obligations.DowngradeTaken : Prop :=
  ∀ (s : State) (n : SlotId) (lw : BitVec 13) (l : LockId),
    slotsReady s → (s.hw.rqt.slot n).state = .idle → lockField lw = some l →
    let o : Operation := { op := .downgrade, lock := l, mode := none, tryFlag := false, waitLimit := 0 }
    (findHold n l s.hw.rqt.holds = none →
      ∃ t, exec (.downgrade n lw) s = .next t ∧ t.hw.rqt.holds = s.hw.rqt.holds
        ∧ endedAtOnce s t n o (.result n .downgrade l none .notHeld .none))
    ∧ (∀ e, findHold n l s.hw.rqt.holds = some e → e.state = .revoked →
      ∃ t, exec (.downgrade n lw) s = .next t ∧ t.hw.rqt.holds = s.hw.rqt.holds
        ∧ endedAtOnce s t n o (.result n .downgrade l (some e.mode) .notHeld .revoked))
    ∧ (∀ e, findHold n l s.hw.rqt.holds = some e → e.state = .held → e.mode = .shared →
      ∃ t, exec (.downgrade n lw) s = .next t ∧ t.hw.rqt.holds = s.hw.rqt.holds
        ∧ endedAtOnce s t n o (.result n .downgrade l (some .shared) .notExclusive .none))
    ∧ (∀ e, findHold n l s.hw.rqt.holds = some e → e.state = .held → e.mode = .exclusive →
      ∃ t, exec (.downgrade n lw) s = .next t
        ∧ unmarked t.hw.rqt.holds =
            unmarked (updateHold n l (fun x => { x with state := .downgrading, mode := .exclusive })
              s.hw.rqt.holds)
        ∧ issuedToHome s t n o { kind := .downgrade, slot := n, lock := l }
            { kind := .downgrade, station := s.hw.id, slot := n, index := indexOf l, mode := .shared
              tryFlag := false, endFlag := false }
            (s.hw.rqt.slot n).waitTimer
        ∧ t.hw.rqt.homes = s.hw.rqt.homes ∧ t.hw.rqt.answer = s.hw.rqt.answer
        ∧ t.hw.rqt.waitLimits = s.hw.rqt.waitLimits)

/-- R79: what a CANCEL taken does, by the state of the slot (`cancelRows` lists the rows). That a
CANCEL that reaches a free own home is taken by its own command is log 5. -/
def Obligations.CancelTaken : Prop :=
  ∀ (s : State) (n : SlotId) (o : Operation), slotsReady s →
    (s.hw.rqt.slot n).operation = some o → o.op = .acquire → cancelRows (.cancel n) s n o .client .none

/-! ### The other port accesses -/

/-- What the port shows. A write to a slot parameter register stores bits 0 to 15 as the wait limit, and reads back
so; nothing else changes, the ACQUIRE outstanding included (R168). The slot status words (R169), the station
status words (R172), the hold table view (R174), the home table summary and the stalled-lock list (R175) and the
membership view (R176) show the state in the fields these rules give, as long as each count fits the range its
rule gives it. A partial read returns the bytes addressed, and 0 at the queue head (R167); that its other bytes
read 0 is the model's choice (log 17), and so is that the held bit of a stopped silence timer reads 0 (log 30). -/
def Obligations.SlotParameterStored : Prop :=
  (∀ (s : State) (n : SlotId) (w : Word), s.hw.port.porAsserted = false →
    ∃ t, exec (.slotParameterWrite n w) s = .next t
    ∧ registerWord (.slotParameter n) t.hw = w &&& 0xFFFF#32
    ∧ (∀ m, m ≠ n → t.hw.rqt.waitLimits.get m = s.hw.rqt.waitLimits.get m)
    ∧ t = { s with hw := { s.hw with rqt := { s.hw.rqt with waitLimits := t.hw.rqt.waitLimits } } })
  ∧ (∀ (h : Hw) (addr : BitVec 10), portRead addr 15 h =
      if h.port.porAsserted = true then 0 else registerWord (registerAt addr) h)
  ∧ (∀ (h : Hw) (addr : BitVec 10) (be : BitVec 4),
    (h.port.porAsserted = true → portRead addr be h = 0)
    ∧ (registerAt addr = .queueHead → be ≠ 15 → portRead addr be h = 0)
    ∧ (h.port.porAsserted = false → registerAt addr ≠ .queueHead → ∀ (lane : Fin 4) (i : Fin 8),
        (portRead addr be h).getLsbD (8 * lane.val + i.val) =
          (be.getLsbD lane.val && (registerWord (registerAt addr) h).getLsbD (8 * lane.val + i.val))))
  ∧ (∀ h n, slotStatusShown h n) ∧ (∀ h, stationStatusShown h) ∧ (∀ h pos, holdShown h pos)
  ∧ (∀ h, homeShown h) ∧ ∀ h p, memberShown h p

/-- R105: a read of the queue head register, by what stands at the head of the queue; the word has the fields R170
lays out. A partial read, and one while POR_N is asserted, returns 0 and removes nothing (R167, R180). A LEVEL
line is asserted exactly while an entry routed to it stands in the queue (R106, R107), and a write to the
register is ignored. The word read is kept in the model's `readData` (log 2). -/
def Obligations.QueueHeadRead : Prop :=
  (∀ (s : State) (be : BitVec 4), s.hw.port.porAsserted = true ∨ be ≠ 15 →
    exec (.queueHeadRead be) s =
      .next { s with hw := { s.hw with port := { s.hw.port with readData := 0 } } })
  ∧ (∀ s : State, s.hw.port.porAsserted = false →
    (s.hw.cqu.queue = [] → exec (.queueHeadRead 15) s =
      .next { s with hw := { s.hw with port := { s.hw.port with readData := 0 } } })
    ∧ (∀ n op l m c d rest, s.hw.cqu.queue = .result n op l m c d :: rest →
        (s.hw.rqt.slot n).state = .done → ∃ t, exec (.queueHeadRead 15) s = .next t
        ∧ t.hw.cqu = { s.hw.cqu with queue := rest }
        ∧ t.hw.rqt.slot n = .idleWith (s.hw.rqt.slot n).refusal (s.hw.rqt.slot n).owed
        ∧ sameSlotsBut n s.hw.rqt t.hw.rqt ∧ t.hw.rqt.holds = s.hw.rqt.holds
        ∧ sameWalk s.hw.rqt t.hw.rqt ∧ t.hw.lbc = s.hw.lbc ∧ t.hw.htu = s.hw.htu
        ∧ t.hw.scu = s.hw.scu ∧ t.hw.mbu = s.hw.mbu
        ∧ t.hw.port = { s.hw.port with readData := t.hw.port.readData }
        ∧ resultFields t.hw.port.readData n op l m c d)
    ∧ (∀ n rest, s.hw.cqu.queue = .notice n :: rest → exec (.queueHeadRead 15) s =
        .next { s with
          hw := { s.hw with
            cqu := { s.hw.cqu with
              queue := rest, notices := s.hw.cqu.notices.set n.val false n.isLt }
            port := { s.hw.port with
              readData := 0#16 ++ BitVec.ofNat 8 (revokedCount n s.hw.rqt.holds) ++ 0#1
                ++ BitVec.ofNat 5 n.val ++ 2#2 } } })
    ∧ (∀ rest, s.hw.cqu.queue = .station :: rest → ∃ w, exec (.queueHeadRead 15) s =
        .next { s with
          hw := { s.hw with
            cqu := { s.hw.cqu with queue := rest, events := .empty }
            port := { s.hw.port with readData := w } } }
        ∧ stationFields w s.hw.cqu.events)
    ∧ ∀ w, exec (portWrite 128 15 w) s = .next s)
  ∧ ∀ (h : Hw) (k : LineId), h.scu.lineModes.get k = .level →
      (lineAsserted h k = true ↔ ∃ e ∈ h.cqu.queue, routedTo h.scu e = .line k)

/-- A configuration write: refused FROZEN, refused RANGE as a whole, or taken whole and then read back as written
but for the bits that are not read (R173). -/
def Obligations.ConfigurationWrite : Prop :=
  ∀ (s : State) (w : Word), s.hw.port.porAsserted = false →
    let refused (c : ConfigStatus) : Host.Outcome State Fault Refusal :=
      .next { s with hw := { s.hw with scu := { s.hw.scu with configStatus := c } } }
    (s.hw.scu.frozen = true → ∀ r, exec (.configurationWrite r w) s = refused .frozen)
    ∧ (s.hw.scu.frozen = false →
      (∀ k, (∃ j : Fin 8, 5 ≤ (bits w (4 * j.val) 3).toNat) →
        exec (.configurationWrite (.routes k) w) s = refused .range)
      ∧ (5 ≤ (bits w 0 3).toNat ∨ bits w 8 6 = 0 ∨ bits w 16 4 = 0 ∨ (bits w 20 3).toNat < 2 →
          exec (.configurationWrite .station w) s = refused .range)
      ∧ (∀ k, (∀ j : Fin 8, (bits w (4 * j.val) 3).toNat < 5) →
          ∃ t, exec (.configurationWrite (.routes k) w) s = .next t
          ∧ configRead (.routes k) t.hw = w &&& 0x77777777#32
          ∧ (∀ i, i ≠ k → configRead (.routes i) t.hw = configRead (.routes i) s.hw)
          ∧ t = { s with
              hw := { s.hw with
                scu := { s.hw.scu with configStatus := .taken, routes := t.hw.scu.routes } } })
      ∧ ((bits w 0 3).toNat < 5 → bits w 8 6 ≠ 0 → bits w 16 4 ≠ 0 → 2 ≤ (bits w 20 3).toNat →
          ∃ t, exec (.configurationWrite .station w) s = .next t
          ∧ configRead .station t.hw = w &&& 0x007F3FF7#32
          ∧ t.hw.scu.configStatus = .taken ∧ t.hw.scu.routes = s.hw.scu.routes
          ∧ t.hw.cqu.queue = s.hw.cqu.queue
          ∧ (∀ i, t.hw.scu.lineModes.get i ≠ s.hw.scu.lineModes.get i →
              t.hw.cqu.lines.get i = ⟨0, .idle⟩)
          ∧ (∀ i, t.hw.scu.lineModes.get i = s.hw.scu.lineModes.get i →
              t.hw.cqu.lines.get i = s.hw.cqu.lines.get i)
          ∧ t.hw.lbc = s.hw.lbc ∧ t.hw.htu = s.hw.htu ∧ t.hw.rqt = s.hw.rqt ∧ t.hw.mbu = s.hw.mbu
          ∧ t.hw.port = s.hw.port))

/-- A write the port ignores changes nothing; these are the narrow writes, the writes to read-only registers and
those outside the table (R167), and every write while POR_N is asserted (R180; that the commands the writes stand
for come to the station all the same is log 16). -/
def Obligations.IgnoredWrites : Prop :=
  (∀ (a : BitVec 10) (be : BitVec 4) (w : Word) (s : State),
    exec (.portWriteIgnored a be w) s = .next s)
  ∧ (∀ s : State, s.hw.port.porAsserted = true →
    (∀ c ∈ [Instr.join, .leave, .flush, .reset], exec c s = .next s)
    ∧ (∀ code, exec (.stationCommandInvalid code) s = .next s)
    ∧ (∀ n m f l, exec (.acquire n m f l) s = .next s)
    ∧ (∀ n l, exec (.release n l) s = .next s ∧ exec (.downgrade n l) s = .next s)
    ∧ (∀ n, exec (.cancel n) s = .next s) ∧ (∀ n code, exec (.slotCommandInvalid n code) s = .next s)
    ∧ (∀ n w, exec (.slotParameterWrite n w) s = .next s)
    ∧ ∀ r w, exec (.configurationWrite r w) s = .next s)
  ∧ ∀ (a : BitVec 10) (be : BitVec 4) (w : Word),
      (be ≠ 15 ∨ (registerAt a).writable = false) → portWrite a be w = .portWriteIgnored a be w

/-! ### The lockbus -/

/-- The winner of a round: the station whose asserted line comes first, in cyclic order, after the pointer; the
station at the pointer comes last; no line, no winner (R29). -/
def Obligations.WinnerIsFirstAfterPointer : Prop :=
  ∀ (p : StationId) (lines : BitVec 16),
    (winnerAfter p lines = none ↔ lines = 0)
    ∧ ∀ w, winnerAfter p lines = some w ↔
        lines.getLsbD w.val = true
        ∧ ∀ v : StationId, lines.getLsbD v.val = true → (w - (p + 1)).val ≤ (v - (p + 1)).val

/-- An arbitration at an observing station with no open transaction (R27 to R31): each round's candidate is the
oldest admissible entry of the priority list, or the head of the normal list, in the states that arbitrate; the
pointer becomes the winner and the record is opened; the winner's candidate leaves its list, the older entries
and the other list staying, a QUEUED_OUT slot of it goes ON_BUS (R80) and an own GRANT engages the home (R23).
An arbitration without a winner, or at a station that does not observe, changes nothing; that one given with a
record open changes nothing is the model's choice (log 7), and so is that a claim which has reached a free home
and has not been taken by its own command is taken here, before the arbitration (R53, log 5). -/
def Obligations.ArbitrationOpensRecord : Prop :=
  ∀ (s : State) (pl nl : BitVec 16),
    let rounds (u : State) : Prop :=
      let h := u.hw
      let held (y : Transaction) : Prop := y.kind = .grant ∧ h.htu.purge.isSome = true
      let pc := if h.scu.station.present = true then h.lbc.priority.find? (fun y => ¬held y) else none
      let nc :=
        if h.scu.station.present = true ∨ h.scu.station = .joining then h.lbc.normal.head? else none
      let first := winnerAfter h.lbc.pointer (if pc.isSome then pl ||| stationBit h.id else pl)
      let second := winnerAfter h.lbc.pointer (if nc.isSome then nl ||| stationBit h.id else nl)
      let opened (t : State) (w : StationId) (round : Round) (entry : Option Transaction) : Prop :=
        t.hw.lbc.pointer = w ∧ t.hw.lbc.record = some (recordOpened w round entry)
          ∧ winnerTold u t entry
      (first = none → second = none → exec (.arbitration pl nl) s = .next u)
      ∧ (∀ w, first = some w → ∃ t, exec (.arbitration pl nl) s = .next t
          ∧ opened t w .priority (if w = h.id then pc else none)
          ∧ t.hw.lbc.normal = h.lbc.normal
          ∧ (∀ x, w = h.id → pc = some x → ∃ older younger, h.lbc.priority = older ++ x :: younger
              ∧ t.hw.lbc.priority = older ++ younger ∧ ¬held x ∧ ∀ y ∈ older, held y)
          ∧ (w ≠ h.id ∨ pc = none → t.hw.lbc.priority = h.lbc.priority))
      ∧ (first = none → ∀ w, second = some w → ∃ t, exec (.arbitration pl nl) s = .next t
          ∧ opened t w .normal (if w = h.id then nc else none)
          ∧ t.hw.lbc.priority = h.lbc.priority
          ∧ (∀ x, w = h.id → nc = some x → h.lbc.normal = x :: t.hw.lbc.normal)
          ∧ (w ≠ h.id ∨ nc = none → t.hw.lbc.normal = h.lbc.normal))
    (s.hw.scu.station.observes = false ∨ s.hw.lbc.record.isSome = true →
      exec (.arbitration pl nl) s = .next s)
    ∧ (s.hw.scu.station.observes = true → s.hw.lbc.record = none →
      (∃ t, exec (.arbitration pl nl) s = .next t)
      ∧ (s.hw.htu.engaged ≠ .free ∨ s.hw.htu.arriving = [] → rounds s)
      ∧ (expiryOnce s.hw.htu → .lockTransaction ∉ s.hw.htu.arriving →
          ∃ u, arrivalsSettled s u ∧ rounds u))

/-- Decode and encode agree on request words (R165): every transaction, from every station, is read back with every
field as it was written. -/
def Obligations.RequestWordsRoundTrip : Prop :=
  ∀ (own : StationId) (t : Transaction),
    readRequest (requestWord0 own t) (requestWord1 t) = some t ∧ sourceField (requestWord0 own t) = own

/-- A response word is read back as the response written, for the kinds whose set holds it, and no other code and
detail is read as a response (R44, R166); the parity driven with a word passes the check of R35, and with one
line of the word, or one parity line, read wrong it does not. -/
def Obligations.ResponseWordsAndParity : Prop :=
  (∀ (k : Kind) (x : Response),
    (x ∈ responsesOf k → readResponse k (responseWord x) = some x)
    ∧ ∀ w, readResponse k w = some x →
        x ∈ responsesOf k ∧ responseCode x = bits w 0 4 ∧ responseDetail x = bits w 4 4)
  ∧ ∀ w : Word, parityEven w (parityOf w) = true
    ∧ (∀ i : Fin 32, parityEven (w ^^^ BitVec.twoPow 32 i.val) (parityOf w) = false)
    ∧ ∀ j : Fin 2, parityEven w (parityOf w ^^^ BitVec.twoPow 2 j.val) = false

/-- The request phase at any observing station with an open record: the words read are the wired-OR of what the
stations drive, void is noted exactly for an error found or LVOID read, and the observation phase is due
(R32, R35). A winner that drives alone reads the two request words of its entry, without a void. In every phase the
station drives the lines of `linesDriven`, and no other (R26, R27, R31 to R35, R37, R41); none without an open
record, so none from a reset on (R42, R50). -/
def Obligations.RequestPhaseReadsWords : Prop :=
  (∀ h : Hw, linesDriven h)
  ∧ ∀ (s : State) (r : TxRecord) (a b : Lines), s.hw.lbc.record = some r → r.phase = .request →
    let x := wired a (requestLines s.hw r false)
    let y := wired b (requestLines s.hw r true)
    let wrong : Bool :=
      !parityEven x.ldat x.lpar || !parityEven y.ldat y.lpar || (readRequest x.ldat y.ldat).isNone
        || sourceField x.ldat ≠ r.winner || !x.larb.getLsbD r.winner.val || !y.larb.getLsbD r.winner.val
    (∃ t, exec (.requestPhase a b) s = .next t
    ∧ t = { s with
        hw := { s.hw with
          lbc := { s.hw.lbc with
            record := some { r with
              words := some (x.ldat, y.ldat), phase := .observation, error := r.error || wrong
              voidSeen := r.voidSeen || wrong || (x.lvoid || y.lvoid) } } } })
    ∧ ∀ e, r.role = .initiator → r.winner = s.hw.id → r.entry = some e → r.error = false →
        r.voidSeen = false → a = idleLines → b = idleLines →
        exec (.requestPhase a b) s = .next { s with
          hw := { s.hw with
            lbc := { s.hw.lbc with
              record := some { r with
                words := some (requestWord0 s.hw.id e, requestWord1 e), phase := .observation } } } }

/-- The start of the observation phase (R33, R34): the home of a lock transaction that is present and has seen no
error answers; a free home is engaged by the transaction at once (R23, R51), any other stalls it, and it waits at
the tail of the home's list (R53); the target of a GRANT answers without a stall; every other station does not
respond. LVOID read, or the winner's LARB line read released, is noted as a void (R34, R35). That a claim which
had reached the free home and not been taken by its own command is taken here, before the transaction, is log 5;
that the winner itself never answers is log 14; that the winner's LARB line, released in the request phase beside
clean words, counts with the errors after which a station does not answer is the model's choice (log 31). -/
def Obligations.ObservationStart : Prop :=
  (∀ (s : State) (r : TxRecord) (x : Transaction) (o : Lines), s.hw.lbc.record = some r →
    r.phase = .observation → recordRequest r = some x →
    let able := r.error = false ∧ r.role ≠ .initiator ∧ s.hw.scu.station.present = true
    let home := able ∧ x.kind.isLock = true ∧ homeOf x.lock = s.hw.id
    let target := able ∧ x.kind = .grant ∧ x.target = s.hw.id
    let answered (u : State) : Prop := ∃ t r', exec (.observationPhase o) s = .next t
      ∧ t.hw.lbc.record = some r' ∧ r'.phase = .observing ∧ r'.role = .responder ∧ r'.lrsp = true
      ∧ (u.hw.htu.engaged = .free → r'.lstall = false ∧ t.hw.htu = engagedBy .transaction u.hw.htu)
      ∧ (u.hw.htu.engaged ≠ .free → r'.lstall = true
          ∧ t.hw.htu = { u.hw.htu with claims := u.hw.htu.claims ++ [.lockTransaction] })
      ∧ t.hw.lbc.normal = u.hw.lbc.normal ∧ t.hw.lbc.priority = u.hw.lbc.priority
      ∧ t.hw.rqt = u.hw.rqt ∧ t.hw.cqu = u.hw.cqu ∧ sameOutside u.hw t.hw
    (home → s.hw.htu.engaged ≠ .free ∨ s.hw.htu.arriving = [] → answered s)
    ∧ (home → expiryOnce s.hw.htu → .lockTransaction ∉ s.hw.htu.arriving →
        ∃ u, arrivalsSettled s u ∧ answered u)
    ∧ (target → ∃ t r', exec (.observationPhase o) s = .next t ∧ t.hw.lbc.record = some r'
        ∧ r'.phase = .observing ∧ r'.role = .responder ∧ r'.lrsp = true ∧ r'.lstall = r.lstall
        ∧ t.hw.htu = s.hw.htu ∧ t.hw.rqt = s.hw.rqt)
    ∧ (¬home → ¬target → ∃ t r', exec (.observationPhase o) s = .next t ∧ t.hw.lbc.record = some r'
        ∧ r'.phase = .observing ∧ r'.role = r.role ∧ r'.lrsp = r.lrsp ∧ t.hw.htu = s.hw.htu
        ∧ t.hw.rqt = s.hw.rqt))
  ∧ ∀ (s : State) (r : TxRecord) (o : Lines), s.hw.lbc.record = some r → r.phase = .observation →
    ∃ t r', exec (.observationPhase o) s = .next t ∧ t.hw.lbc.record = some r' ∧ r'.phase = .observing
      ∧ voidNoted s.hw.id r r' o

/-- The close of the observation phase (R36): not while LSTALL is asserted; else the presence set, this station's
own bit in it, and LRSP are read, and a response phase follows exactly for a kind that has one when LRSP is
asserted. In a stall and at the close, LVOID read, or the winner's LARB line read released, is noted as a void
(R34, R35). A transaction that engages the home and is not decided by its own command is decided by the close
(R51, log 6). -/
def Obligations.ObservationClose : Prop :=
  (∀ (s : State) (r : TxRecord) (x : Transaction) (o : Lines), s.hw.lbc.record = some r →
    r.phase = .observing → recordRequest r = some x →
    (o.lstall = true ∨ r.lstall = true → ∃ t r', exec (.observationClose o) s = .next t
      ∧ t.hw.lbc.record = some r' ∧ r'.phase = .observing ∧ r'.presence = r.presence
      ∧ r'.responded = r.responded ∧ t.hw.htu = s.hw.htu ∧ t.hw.rqt = s.hw.rqt)
    ∧ (o.lstall = false → r.lstall = false → ∃ t r', exec (.observationClose o) s = .next t
        ∧ t.hw.lbc.record = some r'
        ∧ r'.presence = some (o.ldat.setWidth 16 ||| presenceBit s.hw)
        ∧ r'.responded = some (o.lrsp || r.lrsp)
        ∧ r'.phase = (if x.kind.hasResponse = true ∧ (o.lrsp || r.lrsp) = true then .response
            else .completion)
        ∧ sameOutside s.hw t.hw ∧ t.hw.cqu = s.hw.cqu ∧ t.hw.rqt.slots = s.hw.rqt.slots
        ∧ t.hw.rqt.holds = s.hw.rqt.holds))
  ∧ (∀ (s : State) (r : TxRecord) (x : Transaction) (src : StationId) (o : Lines), lockClaim s x src →
    s.hw.lbc.record = some r → r.lstall = false → o.lstall = false →
    ∃ u, exec .lockTransactionClaim s = .next u ∧ exec (.observationClose o) s = exec (.observationClose o) u)
  ∧ ∀ (s : State) (r : TxRecord) (o : Lines), s.hw.lbc.record = some r → r.phase = .observing →
    ∃ t r', exec (.observationClose o) s = .next t ∧ t.hw.lbc.record = some r' ∧ voidNoted s.hw.id r r' o

/-- The answer to a GRANT that names this station, by the rows of R90, held in flight at the close; and its
unvoided completion (R91): ACCEPT makes the reservation HELD and ends the ACQUIRE with ACQUIRED, a DECLINE that
ends a cancel removes the CANCEL as R86 gives, and in every case the record of the answer empties; while flushing
the answer is discarded (R158). The walker may then mark holds and place REASSERTs (R143). -/
def Obligations.GrantAnswered : Prop :=
  (∀ (s : State) (r : TxRecord) (x : Transaction) (o : Lines), s.hw.lbc.record = some r →
    r.phase = .observing → r.role = .responder → recordRequest r = some x → x.kind = .grant →
    o.lstall = false → r.lstall = false →
    let q := s.hw.rqt.slot x.targetSlot
    let waits := q.state = .waiting ∧
      ∃ p, q.operation = some p ∧ p.op = .acquire ∧ p.lock = x.lock ∧ p.mode = some x.mode
    let ending := q.state = .cancelling ∧ ∃ p, q.operation = some p ∧ p.lock = x.lock
    ∃ t a, exec (.observationClose o) s = .next t ∧ t.hw.rqt.answer = some a
      ∧ a.slot = x.targetSlot ∧ a.lock = x.lock ∧ a.mode = x.mode ∧ a.failHeld = false
      ∧ (a.accept = true ↔ s.hw.scu.flushing = false ∧ waits)
      ∧ (a.cancelToEnd = true ↔ s.hw.scu.flushing = false ∧ ending)
      ∧ t.hw.rqt.slots = s.hw.rqt.slots ∧ t.hw.rqt.holds = s.hw.rqt.holds ∧ t.hw.htu = s.hw.htu)
  ∧ ∀ (s : State) (r : TxRecord) (x : Transaction) (o : Lines) (ef : Bool) (a : Answer) (y : Response),
    atCompletion s r → ¬voided r o → r.role = .responder → r.winner ≠ s.hw.id →
    recordRequest r = some x → x.kind = .grant → r.responded = some true → r.response = some y →
    s.hw.rqt.answer = some a →
    let q := s.hw.rqt.slot a.slot
    let emptied (t : State) : Prop :=
      t.hw.rqt = { s.hw.rqt with answer := none } ∧ t.hw.cqu = s.hw.cqu
        ∧ t.hw.lbc = { s.hw.lbc with record := none }
    let ended (t : State) (p : Operation) (code : ResultCode) : Prop :=
      t.hw.rqt.slot a.slot = q.ended
        ∧ t.hw.cqu.queue = s.hw.cqu.queue ++ [.result a.slot p.op p.lock p.mode code .none]
    ∃ t, exec (.completion o ef) s = .next t
    ∧ t.hw.rqt.answer = none ∧ t.hw.lbc.record = none ∧ t.hw.htu = s.hw.htu ∧ t.hw.scu = s.hw.scu
    ∧ t.hw.port = s.hw.port ∧ sameSlotsBut a.slot s.hw.rqt t.hw.rqt
    ∧ t.hw.rqt.waitLimits = s.hw.rqt.waitLimits ∧ t.hw.rqt.homes = s.hw.rqt.homes
    ∧ t.hw.rqt.responses = s.hw.rqt.responses
    ∧ (s.hw.scu.flushing = true → emptied t)
    ∧ (s.hw.scu.flushing = false → a.accept = true → q.state = .waiting →
        ∀ p, q.operation = some p → ended t p .acquired ∧ t.hw.lbc.normal = s.hw.lbc.normal
          ∧ unmarked t.hw.rqt.holds =
              unmarked (updateHold a.slot p.lock (fun e => { e with state := .held, mode := a.mode })
                s.hw.rqt.holds))
    ∧ (s.hw.scu.flushing = false → a.accept = false → a.cancelToEnd = true → q.state = .cancelling →
        ∀ p c, q.operation = some p → p.lock = a.lock → q.cause = some c →
        (homeOf p.lock ≠ s.hw.id → slotEntryListed a.slot s.hw = true → ended t p c.result
          ∧ t.hw.lbc.normal = s.hw.lbc.normal.filter (fun x => !isSlotEntry a.slot x)
          ∧ t.hw.rqt.holds = withoutReservation a.slot p.lock s.hw.rqt.holds)
        ∧ (homeOf p.lock ≠ s.hw.id → slotEntryListed a.slot s.hw = false →
          t.hw.rqt.slot a.slot = { q with ending := true } ∧ t.hw.rqt.holds = s.hw.rqt.holds
          ∧ t.hw.cqu = s.hw.cqu ∧ t.hw.lbc = { s.hw.lbc with record := none })
        ∧ (homeOf p.lock = s.hw.id → emptied t))
    ∧ (a.accept = false → a.cancelToEnd = false → emptied t)

/-- The response phase (R37): a response of the kind's set, driven with its parity while LRSP and the winner's line
are held, is read into the record without a void; the responder reads its own. A word with wrong parity or no
response of the kind, LRSP released, or the winner's line released is an error, noted as a void; and so is
LVOID (R35). -/
def Obligations.ResponseRead : Prop :=
  ∀ (s : State) (r : TxRecord) (x : Transaction) (o : Lines),
    s.hw.lbc.record = some r → r.phase = .response → recordRequest r = some x →
    (∀ y, y ∈ responsesOf x.kind →
      (r.role ≠ .responder → r.lrsp = false → o.ldat = responseWord y →
        o.lpar = parityOf (responseWord y) → o.lrsp = true → o.lvoid = false →
        (r.role = .initiator ∧ r.winner = s.hw.id ∨ o.larb.getLsbD r.winner.val = true) →
        r.error = false → r.voidSeen = false →
        ∃ t, exec (.responsePhase o) s = .next t
          ∧ t = { s with
              hw := { s.hw with
                lbc := { s.hw.lbc with
                  record := some { r with response := some y, phase := .completion } } } })
      ∧ (r.role = .responder → r.lrsp = true → ownResponse s.hw = some y → o.ldat = 0 → o.lpar = 0 →
          o.lvoid = false → o.larb.getLsbD r.winner.val = true → r.error = false → r.voidSeen = false →
          ∃ t, exec (.responsePhase o) s = .next t
            ∧ t = { s with
                hw := { s.hw with
                  lbc := { s.hw.lbc with
                    record := some { r with response := some y, phase := .completion } } } }))
    ∧ (r.role ≠ .responder → r.lrsp = false →
        (parityEven o.ldat o.lpar = false ∨ readResponse x.kind o.ldat = none ∨ o.lrsp = false
          ∨ (r.role ≠ .initiator ∧ o.larb.getLsbD r.winner.val = false)) →
        exec (.responsePhase o) s = .next { s with
          hw := { s.hw with
            lbc := { s.hw.lbc with
              record := some { r with
                response := readResponse x.kind o.ldat, phase := .completion
                error := true, voidSeen := true } } } })
    ∧ (o.lvoid = true → ∃ t r', exec (.responsePhase o) s = .next t ∧ t.hw.lbc.record = some r'
        ∧ r'.voidSeen = true ∧ r'.phase = .completion)

/-- The outcome settled at completion, in its order of precedence: VOID, ABSENT, the response read, complete
(R38). -/
def Obligations.OutcomePrecedence : Prop :=
  ∀ (r : TxRecord) (x : Transaction), recordRequest r = some x →
    (r.voidSeen = true → settle r = .void)
    ∧ (r.voidSeen = false →
      (x.kind.hasResponse = true → r.responded = some false → settle r = .absent)
      ∧ (x.kind.hasResponse = true → r.responded = some true → ∀ y, r.response = some y →
          settle r = .answered y)
      ∧ (x.kind.hasResponse = false → settle r = .complete))

/-- A voided completion, without a claim waiting (R24, R40): one whose record has seen the void, one at which this
station has found an error, and one at which LVOID is read in the completion phase itself (R35). At a station that
is not the initiator the decision is discarded, the home is free, and the winner is a sighting; the answer to a
GRANT is discarded with what was held meanwhile (R91, R158): a wait that failed ends HOME_LOST, a cancel requested
goes on, and both together end with the cancel result. At the initiator a BEACON, JOIN, LEAVE, PURGE or EVICT
returns to the head of its list, and so does an own GRANT, whose home is then free (R67). Nothing else changes. The
unvoided completions that are a sighting and nothing more: at an observer a BEACON, a lock transaction or a GRANT
between others, and an EVICT naming another station, or met in LISTENING or JOINING (R114, R117, R123, R124); at
the initiator the own BEACON and EVICT, which leave for good (R22, R115, R117). The own entry of an aborted slot:
its outcome, voided or not, is discarded and the entry given up, and nothing else changes (R40, R50, R156). -/
def Obligations.VoidedCompletionDiscards : Prop :=
  (∀ (s : State) (r : TxRecord) (x : Transaction) (o : Lines) (ef : Bool), ¬voided r o →
    (peerCompletion s r x →
      x.kind = .beacon ∨ x.kind.isLock = true ∨ x.kind = .grant
        ∨ (x.kind = .evict ∧ (x.target ≠ s.hw.id ∨ s.hw.scu.station = .listening
            ∨ s.hw.scu.station = .joining)) →
      exec (.completion o ef) s = .next { s with
        hw := { s.hw with
          lbc := { s.hw.lbc with record := none }
          mbu := s.hw.mbu.setMember r.winner
            ⟨.present, if s.hw.scu.station.present = true then some 0 else none⟩ } })
    ∧ (ownCompletion s r x o → x.kind = .beacon ∨ x.kind = .evict →
      exec (.completion o ef) s = .next { s with
        hw := { s.hw with
          lbc := { s.hw.lbc with record := none }
          mbu := { s.hw.mbu with wonMark := true } } }))
  ∧ (∀ (s : State) (r : TxRecord) (x : Transaction) (o : Lines) (ef : Bool), ownCompletion s r x o →
    x.kind.isSlot = true → (s.hw.rqt.slot x.slot).aborted = true →
    exec (.completion o ef) s = .next { s with
      hw := { s.hw with
        lbc := { s.hw.lbc with record := none }
        mbu := { s.hw.mbu with wonMark := true } } })
  ∧ ∀ (s : State) (r : TxRecord) (o : Lines) (ef : Bool), atCompletion s r → voided r o →
    s.hw.htu.claims = [] →
    let closed : Lbc := { s.hw.lbc with record := none }
    (r.role ≠ .initiator → r.winner ≠ s.hw.id → ∃ t, exec (.completion o ef) s = .next t
      ∧ t.hw.mbu.member r.winner =
          ⟨.present, if s.hw.scu.station.present = true then some 0 else none⟩
      ∧ (∀ p, p ≠ r.winner → t.hw.mbu.member p = s.hw.mbu.member p)
      ∧ t.hw.mbu.beaconTimer = s.hw.mbu.beaconTimer ∧ t.hw.mbu.wonMark = s.hw.mbu.wonMark
      ∧ t.hw.scu = s.hw.scu ∧ t.hw.port = s.hw.port
      ∧ (r.role = .observer →
          t.hw.lbc = closed ∧ t.hw.htu = s.hw.htu ∧ t.hw.rqt = s.hw.rqt ∧ t.hw.cqu = s.hw.cqu)
      ∧ (r.role = .responder → ∀ x, recordRequest r = some x → x.kind ≠ .grant →
          t.hw.lbc = closed ∧ t.hw.rqt = s.hw.rqt ∧ t.hw.cqu = s.hw.cqu
          ∧ t.hw.htu = { s.hw.htu with engaged := .free, decision := none })
      ∧ (r.role = .responder → ∀ x, recordRequest r = some x → x.kind = .grant →
        (s.hw.rqt.answer = none →
          t.hw.lbc = closed ∧ t.hw.htu = s.hw.htu ∧ t.hw.rqt = s.hw.rqt ∧ t.hw.cqu = s.hw.cqu)
        ∧ ∀ a, s.hw.rqt.answer = some a →
          let q := s.hw.rqt.slot a.slot
          let pending := s.hw.scu.flushing = false ∧ a.accept = true ∧ q.state = .waiting
          let ended (p : Operation) (code : ResultCode) : Prop :=
            t.hw.rqt.slot a.slot = q.ended ∧ t.hw.lbc = closed ∧ t.hw.htu = s.hw.htu
              ∧ t.hw.cqu.queue =
                  s.hw.cqu.queue ++ [.result a.slot p.op p.lock p.mode code .none]
              ∧ t.hw.rqt.holds = withoutReservation a.slot p.lock s.hw.rqt.holds
          t.hw.rqt.answer = none ∧ sameSlotsBut a.slot s.hw.rqt t.hw.rqt
          ∧ (¬pending ∨ (q.cause = none ∧ a.failHeld = false) →
              t.hw.lbc = closed ∧ t.hw.htu = s.hw.htu ∧ t.hw.cqu = s.hw.cqu
              ∧ t.hw.rqt = { s.hw.rqt with answer := none })
          ∧ ∀ p, pending → q.operation = some p →
            (q.cause = none → a.failHeld = true → ended p .homeLost)
            ∧ ∀ c, q.cause = some c →
              (a.failHeld = true → ended p c.result)
              ∧ (a.failHeld = false →
                  t.hw.rqt.slot a.slot = { q with state := .cancelling, waitTimer := none }
                  ∧ t.hw.rqt.holds = s.hw.rqt.holds ∧ t.hw.cqu = s.hw.cqu
                  ∧ (homeOf p.lock ≠ s.hw.id → t.hw.htu = s.hw.htu
                    ∧ t.hw.lbc = { closed with
                        normal :=
                          s.hw.lbc.normal ++ [{ kind := .cancel, slot := a.slot, lock := p.lock }] }))))
    ∧ (∀ x, ownCompletion s r x o →
      (x.kind = .beacon ∨ x.kind = .join ∨ x.kind = .leave ∨ x.kind = .purge ∨ x.kind = .evict →
        exec (.completion o ef) s = .next { s with
          hw := { s.hw with
            mbu := { s.hw.mbu with wonMark := true }
            lbc :=
              match r.round with
              | .priority => { closed with priority := x :: s.hw.lbc.priority }
              | .normal => { closed with normal := x :: s.hw.lbc.normal } } })
      ∧ (x.kind = .grant →
        exec (.completion o ef) s = .next { s with
          hw := { s.hw with
            mbu := { s.hw.mbu with wonMark := true }
            htu := { s.hw.htu with engaged := .free, decision := none }
            lbc := { closed with priority := x :: s.hw.lbc.priority } } }))

/-- The decision recorded for a lock transaction is applied at the unvoided completion, and the home is free again
(R24, R51, R54), by what it changes: nothing; a holder or a waiter added (GRANTED, QUEUED); a HELD entry removed
(RELEASE); a mode lowered to SHARED (DOWNGRADE); a waiter removed, or an OFFERED entry with its GRANT or its
backlog place (CANCEL, R16); a station that leaves the awaited set (the closing REASSERT, R137, R138); these
where no lock is stalled and no waiter is left to be offered. In general the locks changed are then evaluated at a
home that serves, and the stalled-lock pass follows (R9; R54, steps 3 to 5). Where claims waited, the end of the
engagement, by an unvoided completion or a voided one, of a lock transaction or of the own GRANT, is followed by
the taking of those claims, one after another, until one engages the home or the list is empty (R23, R53); the
outcome of an own GRANT stands behind them (R64). What reaches the home while it is free, the answers to the
offers this makes among them (R69), is taken by its own command (log 5), and the responses handed for an own slot
are taken before its offer (log 11). -/
def Obligations.DecisionAppliedAtCompletion : Prop :=
  (∀ (s : State) (r : TxRecord) (x : Transaction) (o : Lines) (ef : Bool) (d : Decision),
    atCompletion s r → ¬voided r o → r.role = .responder → r.winner ≠ s.hw.id →
    recordRequest r = some x → x.kind.isLock = true → r.responded = some true →
    r.response = some d.response → s.hw.htu.decision = some d →
    s.hw.htu.claims = [] →
    let closed : Lbc := { s.hw.lbc with record := none }
    let none' : Htu := { s.hw.htu with engaged := .free, decision := none }
    let becomes (u : Htu) (l : Lbc) : Prop := ∃ t, exec (.completion o ef) s = .next t
      ∧ t.hw.htu = u ∧ t.hw.lbc = l ∧ t.hw.rqt = s.hw.rqt ∧ t.hw.cqu = s.hw.cqu
      ∧ t.hw.scu = s.hw.scu ∧ t.hw.port = s.hw.port
    (s.hw.htu.stalled = [] →
      (d.changes = {} → becomes none' closed)
      ∧ (∀ e, d.changes = { addHolder := some e } → s.hw.htu.waiters = [] →
          becomes { none' with holders := s.hw.htu.holders ++ [e] } closed)
      ∧ (∀ w, d.changes = { addWaiter := some w } → s.hw.htu.waiters = [] →
          (∃ e ∈ s.hw.htu.holders, e.index = w.index ∧ ¬(w.mode = .shared ∧ e.mode = .shared)) →
          becomes { none' with waiters := [w] } closed)
      ∧ (∀ e, d.changes = { dropHolders := [e] } → s.hw.htu.waiters = [] →
          let holders := s.hw.htu.holders.filter fun y => y ≠ e
          (e.state = .held → becomes { none' with holders := holders } closed)
          ∧ (e.state = .offered → e.posted = some false →
              becomes
                { none' with
                  holders := holders
                  backlog :=
                    s.hw.htu.backlog.filter fun w =>
                      ¬(w.index = e.index ∧ w.station = e.station ∧ w.slot = e.slot) } closed)
          ∧ (e.state = .offered → e.posted = some true → s.hw.htu.backlog = [] →
              let grant (y : Transaction) : Prop := y.kind = .grant ∧ y.target = e.station
                ∧ y.targetSlot = e.slot ∧ y.lock = lockAt s.hw.id e.index
              (∃ y ∈ s.hw.lbc.priority, grant y) →
              becomes { none' with holders := holders, posted := s.hw.htu.posted - 1 }
                { closed with priority := s.hw.lbc.priority.filter fun y => ¬grant y }))
      ∧ (∀ e, d.changes = { share := some e } → s.hw.htu.waiters = [] →
          becomes
            { none' with
              holders := s.hw.htu.holders.map fun y => if y = e then { y with mode := .shared } else y }
            closed)
      ∧ (∀ w, d.changes = { dropWaiters := [w] } → s.hw.htu.waiters = [w] →
          becomes { none' with waiters := [] } closed)
      ∧ (∀ p, d.changes = { unawait := some p } → s.hw.scu.station = .rebuilding →
          s.hw.htu.awaited.getLsbD p.val = true →
          let left := s.hw.htu.awaited &&& ~~~(BitVec.twoPow 16 p.val)
          (left ≠ 0 → becomes { none' with awaited := left } closed)
          ∧ (left = 0 → ∃ t, exec (.completion o ef) s = .next t
              ∧ t.hw.htu = { none' with awaited := 0, rebuildTimer := none } ∧ t.hw.lbc = closed
              ∧ t.hw.scu = { s.hw.scu with station := .online } ∧ t.hw.rqt = s.hw.rqt
              ∧ t.hw.cqu.events = { s.hw.cqu.events with online := true })))
    ∧ (d.changes.unawait = none → ∃ t, exec (.completion o ef) s = .next t
      ∧ decisionMade d.changes
          { s.hw with
            htu := none', lbc := closed
            mbu := s.hw.mbu.setMember r.winner
              ⟨.present, if s.hw.scu.station.present = true then some 0 else none⟩ } t.hw))
  ∧ ∀ (s : State) (r : TxRecord) (x : Transaction) (o : Lines) (ef : Bool), atCompletion s r →
    recordRequest r = some x →
    (r.role = .responder ∧ x.kind.isLock = true)
      ∨ (r.role = .initiator ∧ r.entry = some x ∧ x.kind = .grant) →
    (.rebuildExpiry ∈ s.hw.htu.claims → s.hw.htu.rebuildTimer = none) →
    takesWaiting (.completion o ef) s
      (if x.kind = .grant ∧ outcomeAt r o ≠ .void ∧ s.hw.htu.claims ≠ [] then
        [.grantOutcome x.target x.targetSlot x.lock x.mode (outcomeAt r o)]
      else [])

/-- The outcomes of a slot's ACQUIRE with no cancel requested (R82, R83, R84). -/
def Obligations.AcquireOutcomes : Prop :=
  ∀ (c : Instr) (s : State) (x : Transaction) (y : BusOutcome) (q : Operation) (m : Mode),
    bringsOutcome c s x y → x.kind = .acquire →
    let n := x.slot
    let r := s.hw.rqt.slot n
    r.state = .onBus → r.aborted = false → r.cause = none → r.operation = some q → q.op = .acquire →
    q.lock = x.lock → q.mode = some m →
    let limit := s.hw.scu.attemptLimit.toNat
    let ended (t : State) (code : ResultCode) (detail : ResultDetail) (attempts : Nat) : Prop :=
      t.hw.rqt.slot n = { r.ended with attempts := attempts }
        ∧ t.hw.cqu.queue = s.hw.cqu.queue ++ [.result n .acquire q.lock (some m) code detail]
    let failed (t : State) (code : ResultCode) (detail : ResultDetail) (attempts : Nat) : Prop :=
      ended t code detail attempts ∧ t.hw.rqt.holds = withoutReservation n q.lock s.hw.rqt.holds
        ∧ t.hw.lbc.normal = s.hw.lbc.normal
    let backoff (t : State) (attempts : Nat) : Prop :=
      t.hw.rqt.slot n =
          { r with
            state := .backoff, attempts := attempts
            backoffTimer := some
              (16 * s.hw.scu.backoffBase.toNat * max 1 attempts + 4 * s.hw.id.val) }
        ∧ t.hw.cqu.queue = s.hw.cqu.queue ∧ t.hw.rqt.holds = s.hw.rqt.holds
    let refusedFor (t : State) (detail : ResultDetail) : Prop :=
      (limit ≤ r.attempts + 1 → failed t .refusedLimit detail (r.attempts + 1))
        ∧ (r.attempts + 1 < limit → backoff t (r.attempts + 1))
    ∃ t, exec c s = .next t ∧ sameSlotsBut n s.hw.rqt t.hw.rqt ∧ t.hw.htu = s.hw.htu
    ∧ t.hw.scu = s.hw.scu ∧ t.hw.port = s.hw.port
    ∧ (y = .answered .granted → ended t .acquired .none r.attempts
        ∧ unmarked t.hw.rqt.holds =
            unmarked (updateHold n q.lock (fun e => { e with state := .held, mode := m }) s.hw.rqt.holds))
    ∧ (y = .answered .queued → t.hw.rqt.slot n = { r with state := .waiting }
        ∧ t.hw.cqu.queue = s.hw.cqu.queue ∧ t.hw.rqt.holds = s.hw.rqt.holds)
    ∧ (y = .answered .busy → failed t .wouldBlock .none r.attempts)
    ∧ (y = .answered (.refused .waitFull) → refusedFor t .waitFull)
    ∧ (y = .answered (.refused .holdFull) → refusedFor t .holdFull)
    ∧ (y = .answered (.refused .rebuilding) → backoff t r.attempts)
    ∧ (y = .absent → failed t .homeAbsent .none r.attempts)
    ∧ (y = .void →
        (limit ≤ r.attempts + 1 → failed t .voidLimit .none (r.attempts + 1))
        ∧ (r.attempts + 1 < limit →
            t.hw.rqt.slot n = { r with state := .queuedOut, attempts := r.attempts + 1 }
            ∧ t.hw.lbc.normal = x :: s.hw.lbc.normal ∧ t.hw.rqt.holds = s.hw.rqt.holds
            ∧ t.hw.cqu.queue = s.hw.cqu.queue))

/-- The outcomes of a slot's ACQUIRE with a cancel requested (R85), and those of the CANCEL of a CANCELLING slot:
every answer ends the slot with its cancel result, and a void keeps the CANCEL at the head of the list (R86). The
CANCEL of a self-homed lock goes to the own home (R80), which, free, takes it by its own command (log 5). Where a
removal did not find the CANCEL, the slot ends whatever the outcome, and a voided CANCEL is given up (log 28). -/
def Obligations.CancelledAcquireOutcomes : Prop :=
  (∀ (c : Instr) (s : State) (x : Transaction) (y : BusOutcome) (q : Operation) (m : Mode)
      (cause : CancelCause), bringsOutcome c s x y → x.kind = .acquire →
      let n := x.slot
      let r := s.hw.rqt.slot n
      r.state = .onBus → r.aborted = false → r.cause = some cause → r.operation = some q →
      q.op = .acquire → q.lock = x.lock → q.mode = some m →
      let ended (t : State) (code : ResultCode) (attempts : Nat) : Prop :=
        t.hw.rqt.slot n = { r.ended with attempts := attempts }
          ∧ t.hw.cqu.queue = s.hw.cqu.queue ++ [.result n .acquire q.lock (some m) code .none]
      let failed (t : State) (code : ResultCode) (attempts : Nat) : Prop :=
        ended t code attempts ∧ t.hw.rqt.holds = withoutReservation n q.lock s.hw.rqt.holds
          ∧ t.hw.lbc.normal = s.hw.lbc.normal
      ∃ t, exec c s = .next t ∧ sameSlotsBut n s.hw.rqt t.hw.rqt
      ∧ (y ≠ .answered .queued → t.hw.htu = s.hw.htu)
      ∧ (y = .answered .granted → ended t .acquired r.attempts
          ∧ unmarked t.hw.rqt.holds =
              unmarked (updateHold n q.lock (fun e => { e with state := .held, mode := m }) s.hw.rqt.holds))
      ∧ (y = .answered .queued →
          t.hw.rqt.slot n = { r with state := .cancelling, cause := some cause, waitTimer := none }
          ∧ t.hw.rqt.holds = s.hw.rqt.holds
          ∧ (homeOf x.lock ≠ s.hw.id → t.hw.htu = s.hw.htu ∧ t.hw.lbc.normal =
              s.hw.lbc.normal ++ [{ kind := .cancel, slot := n, lock := x.lock }])
          ∧ (homeOf x.lock = s.hw.id → t.hw.lbc.normal = s.hw.lbc.normal ∧ t.hw.htu =
              received
                (.selfRequest
                  { kind := .cancel, station := s.hw.id, slot := n, index := indexOf x.lock, mode := .shared
                    tryFlag := false, endFlag := false })
                s.hw.htu))
      ∧ (y = .answered .busy → failed t .wouldBlock r.attempts)
      ∧ (y = .absent → failed t .homeAbsent r.attempts)
      ∧ (y = .answered (.refused .rebuilding) → failed t cause.result r.attempts)
      ∧ (y = .answered (.refused .waitFull) ∨ y = .answered (.refused .holdFull) ∨ y = .void →
          failed t cause.result (r.attempts + 1)))
  ∧ ∀ (c : Instr) (s : State) (x : Transaction) (y : BusOutcome) (q : Operation) (cause : CancelCause),
      bringsOutcome c s x y → x.kind = .cancel →
      let n := x.slot
      let r := s.hw.rqt.slot n
      r.state = .cancelling → r.aborted = false → r.cause = some cause → r.operation = some q →
      ∃ t, exec c s = .next t ∧ sameSlotsBut n s.hw.rqt t.hw.rqt ∧ t.hw.htu = s.hw.htu
      ∧ (y = .answered .done ∨ y = .answered .notWaiting ∨ y = .absent ∨ (y = .void ∧ r.ending = true) →
          t.hw.rqt.slot n = r.ended
          ∧ t.hw.cqu.queue = s.hw.cqu.queue ++ [.result n q.op q.lock q.mode cause.result .none]
          ∧ t.hw.rqt.holds = withoutReservation n q.lock s.hw.rqt.holds
          ∧ t.hw.lbc.normal = s.hw.lbc.normal)
      ∧ (y = .void → r.ending = false → t.hw.rqt.slot n = r
          ∧ t.hw.lbc.normal = x :: s.hw.lbc.normal
          ∧ t.hw.cqu.queue = s.hw.cqu.queue ∧ t.hw.rqt.holds = s.hw.rqt.holds)

/-- R87: the outcomes of a slot's RELEASE. -/
def Obligations.ReleaseOutcomes : Prop :=
  ∀ (c : Instr) (s : State) (x : Transaction) (y : BusOutcome) (q : Operation),
    bringsOutcome c s x y → x.kind = .release →
    let n := x.slot
    let r := s.hw.rqt.slot n
    r.state = .onBus → r.aborted = false → r.operation = some q → q.op = .release → q.lock = x.lock →
    let ended (t : State) (detail : ResultDetail) : Prop :=
      t.hw.rqt.slot n = r.ended
        ∧ t.hw.cqu.queue = s.hw.cqu.queue ++ [.result n .release q.lock
            ((findHold n q.lock s.hw.rqt.holds).map (·.mode)) .released detail]
        ∧ t.hw.rqt.holds = removeHold n q.lock s.hw.rqt.holds
        ∧ t.hw.lbc.normal = s.hw.lbc.normal
    ∃ t, exec c s = .next t ∧ sameSlotsBut n s.hw.rqt t.hw.rqt ∧ t.hw.htu = s.hw.htu
    ∧ t.hw.scu = s.hw.scu ∧ t.hw.port = s.hw.port ∧ t.hw.lbc.priority = s.hw.lbc.priority
    ∧ (y = .answered .done → ended t .plain)
    ∧ (y = .answered .stale → ended t .stale)
    ∧ (y = .absent → ended t .absent)
    ∧ (y = .void → t.hw.rqt.slot n = { r with state := .queuedOut }
        ∧ t.hw.lbc.normal = x :: s.hw.lbc.normal ∧ t.hw.rqt.holds = s.hw.rqt.holds
        ∧ t.hw.cqu.queue = s.hw.cqu.queue)

/-- R88: the outcomes of a slot's DOWNGRADE. -/
def Obligations.DowngradeOutcomes : Prop :=
  ∀ (c : Instr) (s : State) (x : Transaction) (y : BusOutcome) (q : Operation),
    bringsOutcome c s x y → x.kind = .downgrade →
    let n := x.slot
    let r := s.hw.rqt.slot n
    r.state = .onBus → r.aborted = false → r.operation = some q → q.op = .downgrade → q.lock = x.lock →
    (∃ e, findHold n q.lock s.hw.rqt.holds = some e ∧ e.state = .downgrading) →
    let ended (t : State) (code : ResultCode) (mode : Option Mode) : Prop :=
      t.hw.rqt.slot n = r.ended
        ∧ t.hw.cqu.queue = s.hw.cqu.queue ++ [.result n .downgrade q.lock mode code .none]
    let holdBecomes (t : State) (m : Mode) : Prop :=
      unmarked t.hw.rqt.holds =
        unmarked (updateHold n q.lock (fun e => { e with state := .held, mode := m }) s.hw.rqt.holds)
    ∃ t, exec c s = .next t ∧ sameSlotsBut n s.hw.rqt t.hw.rqt ∧ t.hw.htu = s.hw.htu
    ∧ t.hw.scu = s.hw.scu ∧ t.hw.port = s.hw.port
    ∧ (y = .answered .done → ended t .downgraded (some .shared) ∧ holdBecomes t .shared)
    ∧ (y = .answered .stale → ended t .holdLost none
        ∧ t.hw.rqt.holds = removeHold n q.lock s.hw.rqt.holds)
    ∧ (y = .answered (.refused .rebuilding) →
        t.hw.rqt.slot n =
            { r with
              state := .backoff
              backoffTimer := some
                (16 * s.hw.scu.backoffBase.toNat * max 1 r.attempts + 4 * s.hw.id.val) }
        ∧ t.hw.rqt.holds = s.hw.rqt.holds ∧ t.hw.cqu.queue = s.hw.cqu.queue)
    ∧ (y = .absent → ended t .homeAbsent (some .exclusive) ∧ holdBecomes t .exclusive)
    ∧ (y = .void → t.hw.rqt.slot n = { r with state := .queuedOut }
        ∧ t.hw.lbc.normal = x :: s.hw.lbc.normal ∧ t.hw.rqt.holds = s.hw.rqt.holds
        ∧ t.hw.cqu.queue = s.hw.cqu.queue)

/-! ### Serving lock transactions -/

/-- A home engaged by a lock transaction in the open observation phase takes it: LSTALL is released and the decision
recorded; no table changes (R51). -/
def Obligations.LockClaimRecordsDecision : Prop :=
  ∀ (s : State) (x : Transaction) (src : StationId), lockClaim s x src →
    ∃ t d r, exec .lockTransactionClaim s = .next t
    ∧ t.hw.htu = { s.hw.htu with decision := some d }
    ∧ d.request = { kind := x.kind, station := src, slot := x.slot, index := indexOf x.lock, mode := x.mode,
                    tryFlag := x.tryFlag, endFlag := x.endFlag }
    ∧ s.hw.lbc.record = some r
    ∧ t.hw.lbc = { s.hw.lbc with record := some { r with lstall := false } }
    ∧ t.hw.rqt = s.hw.rqt ∧ t.hw.cqu = s.hw.cqu ∧ sameOutside s.hw t.hw

/-- The decision on an ACQUIRE: the supersede step (R56), REFUSED(REBUILDING) while rebuilding (R57), and in
SERVING the first case of R58 that applies to the tables as that step leaves them. -/
def Obligations.AcquireDecision : Prop :=
  ∀ (s : State) (x : Transaction) (src : StationId), lockClaim s x src →
    x.kind = .acquire →
    let i := indexOf x.lock
    let ws := s.hw.htu.waiters.filter fun w => ¬(w.station = src ∧ w.slot = x.slot)
    let hs := s.hw.htu.holders.filter fun e =>
      ¬(e.station = src ∧ e.slot = x.slot ∧ (e.state = .offered ∨ e.index = i))
    let grantable := (∀ w ∈ ws, w.index ≠ i)
      ∧ ∀ e ∈ hs, e.index = i → x.mode = .shared ∧ e.mode = .shared
    let held : Holder := { index := i, station := src, slot := x.slot, mode := x.mode, state := .held, posted := none }
    let waiter : Waiter := { index := i, station := src, slot := x.slot, mode := x.mode }
    ∃ t d, exec .lockTransactionClaim s = .next t ∧ t.hw.htu.decision = some d
    ∧ (t.hw.htu.without d.changes).waiters = ws ∧ (t.hw.htu.without d.changes).holders = hs
    ∧ d.changes.share = none ∧ d.changes.unawait = none
    ∧ (s.hw.home = .rebuilding → d.response = .refused .rebuilding
        ∧ d.changes.addHolder = none ∧ d.changes.addWaiter = none)
    ∧ (s.hw.home = .serving →
      (grantable ∧ hs.length < 512 → d.response = .granted
        ∧ d.changes.addHolder = some held ∧ d.changes.addWaiter = none)
      ∧ (¬(grantable ∧ hs.length < 512) →
        d.changes.addHolder = none
        ∧ (x.tryFlag = true → d.response = .busy ∧ d.changes.addWaiter = none)
        ∧ (x.tryFlag = false → grantable →
            d.response = .refused .holdFull ∧ d.changes.addWaiter = none)
        ∧ (x.tryFlag = false → ¬grantable → ws.length < 192 →
            d.response = .queued ∧ d.changes.addWaiter = some waiter)
        ∧ (x.tryFlag = false → ¬grantable → 192 ≤ ws.length →
            d.response = .refused .waitFull ∧ d.changes.addWaiter = none)))

/-- The decisions on a RELEASE (R60), a DOWNGRADE (R61) and a CANCEL (R62) by the home's record of the client, which
is at most one entry in each table. -/
def Obligations.ReleaseDowngradeCancelDecisions : Prop :=
  ∀ (s : State) (x : Transaction) (src : StationId), lockClaim s x src →
    let mine (e : Holder) : Prop := e.index = indexOf x.lock ∧ e.station = src ∧ e.slot = x.slot
    let waits (w : Waiter) : Prop := w.index = indexOf x.lock ∧ w.station = src ∧ w.slot = x.slot
    (∀ e ∈ s.hw.htu.holders, ∀ f ∈ s.hw.htu.holders, mine e → mine f → e = f) →
    (∀ w ∈ s.hw.htu.waiters, ∀ v ∈ s.hw.htu.waiters, waits w → waits v → w = v) →
    ∃ t d, exec .lockTransactionClaim s = .next t ∧ t.hw.htu.decision = some d
    ∧ (x.kind = .release →
        (∀ e ∈ s.hw.htu.holders, mine e → e.state = .held →
          d.response = .done ∧ d.changes = { dropHolders := [e] })
        ∧ ((∀ e ∈ s.hw.htu.holders, mine e → e.state ≠ .held) → d.response = .stale ∧ d.changes = {}))
    ∧ (x.kind = .downgrade →
        (s.hw.home = .rebuilding → d.response = .refused .rebuilding ∧ d.changes = {})
        ∧ (s.hw.home = .serving →
          (∀ e ∈ s.hw.htu.holders, mine e → e.state = .held → d.response = .done
            ∧ d.changes = if e.mode = .exclusive then { share := some e } else {})
          ∧ ((∀ e ∈ s.hw.htu.holders, mine e → e.state ≠ .held) →
              d.response = .stale ∧ d.changes = {})))
    ∧ (x.kind = .cancel →
        (∀ w ∈ s.hw.htu.waiters, waits w → d.response = .done ∧ d.changes = { dropWaiters := [w] })
        ∧ ((∀ w ∈ s.hw.htu.waiters, ¬waits w) →
          (∀ e ∈ s.hw.htu.holders, mine e → e.state = .offered →
            d.response = .done ∧ d.changes = { dropHolders := [e] })
          ∧ ((∀ e ∈ s.hw.htu.holders, mine e → e.state ≠ .offered) →
              d.response = .notWaiting ∧ d.changes = {})))

/-- The decision on a REASSERT, by the first case of R138 that applies, STALE in SERVING; and at the station that
reasserts, the outcomes of the REASSERT of the home at the head of the walker's list (R144, R145, R159): the
count falls and the walker goes on, in CLOSING without placing more; CONFLICT revokes a HELD entry and asks for
its NOTICE (R94); the closing one answered, or the home ABSENT, finishes the home and starts the walk of the next; a
void keeps the REASSERT at the head of the list, or gives it up while flushing. -/
def Obligations.ReassertDecision : Prop :=
  (∀ (s : State) (x : Transaction) (src : StationId), lockClaim s x src →
    x.kind = .reassert →
    let i := indexOf x.lock
    let recorded := ∃ e ∈ s.hw.htu.holders, e.index = i ∧ e.station = src ∧ e.slot = x.slot
    let fits := (∀ e ∈ s.hw.htu.holders, e.index = i → x.mode = .shared ∧ e.mode = .shared)
      ∧ s.hw.htu.holders.length < 512
    let held : Holder := { index := i, station := src, slot := x.slot, mode := x.mode, state := .held, posted := none }
    ∃ t d, exec .lockTransactionClaim s = .next t ∧ t.hw.htu.decision = some d
    ∧ (s.hw.home = .serving → d.response = .stale ∧ d.changes = {})
    ∧ (s.hw.home = .rebuilding →
      (s.hw.htu.awaited.getLsbD src.val = false → d.response = .stale ∧ d.changes = {})
      ∧ (s.hw.htu.awaited.getLsbD src.val = true →
        (x.endFlag = true → d.response = .done ∧ d.changes = { unawait := some src })
        ∧ (x.endFlag = false →
          (recorded → d.response = .done ∧ d.changes = {})
          ∧ (¬recorded → fits → d.response = .done ∧ d.changes = { addHolder := some held })
          ∧ (¬recorded → ¬fits → d.response = .conflict ∧ d.changes = {})))))
  ∧ ∀ (s : State) (r : TxRecord) (x : Transaction) (o : Lines) (ef : Bool) (p : StationId)
      (rest : List StationId),
    ownCompletion s r x o → x.kind = .reassert → s.hw.rqt.homes = p :: rest → homeOf x.lock = p →
    let y := outcomeAt r o
    let answered := y = .answered .done ∨ y = .answered .stale
    let q := s.hw.rqt
    let goesOn (t : State) (holds : List (Nat × Hold)) : Prop :=
      t.hw.rqt.homes = q.homes ∧ ∃ new, walkGoesOn q.phase t.hw new
        ∧ walkerPlaced holds s.hw.lbc.priority (q.outstanding - 1) t.hw new
    let finished (t : State) (listed : List Transaction) : Prop :=
      t.hw.rqt.homes = rest ∧ (rest = [] → t.hw.rqt.phase = none)
        ∧ ∃ new, (rest ≠ [] → walkBegun t.hw new) ∧ walkerPlaced (clearMarks p q.holds) listed 0 t.hw new
    ∃ t, exec (.completion o ef) s = .next t
    ∧ t.hw.rqt.slots = q.slots ∧ t.hw.rqt.answer = q.answer ∧ t.hw.rqt.waitLimits = q.waitLimits
    ∧ t.hw.rqt.responses = q.responses ∧ t.hw.lbc.normal = s.hw.lbc.normal ∧ t.hw.lbc.record = none
    ∧ t.hw.lbc.pointer = s.hw.lbc.pointer ∧ t.hw.htu = s.hw.htu ∧ t.hw.scu = s.hw.scu
    ∧ t.hw.port = s.hw.port
    ∧ (x.endFlag = false → answered → goesOn t q.holds ∧ t.hw.cqu = s.hw.cqu)
    ∧ (x.endFlag = false → y = .answered .conflict →
        (∀ e, findHold x.slot x.lock q.holds = some e → e.state = .held →
          goesOn t (updateHold x.slot x.lock (fun h => { h with state := .revoked, mode := e.mode }) q.holds)
          ∧ t.hw.cqu.notice x.slot = true
          ∧ t.hw.cqu.queue = (if s.hw.cqu.notice x.slot = true then s.hw.cqu.queue
              else s.hw.cqu.queue ++ [.notice x.slot]))
        ∧ ((∀ e, findHold x.slot x.lock q.holds = some e → e.state ≠ .held) →
          goesOn t q.holds ∧ t.hw.cqu = s.hw.cqu))
    ∧ (x.endFlag = true → answered → finished t s.hw.lbc.priority ∧ t.hw.cqu = s.hw.cqu)
    ∧ (y = .absent →
        finished t (s.hw.lbc.priority.filter fun z => !(z.kind = .reassert && homeOf z.lock = p))
        ∧ t.hw.cqu = s.hw.cqu)
    ∧ (y = .void → t.hw.cqu = s.hw.cqu
      ∧ (s.hw.scu.flushing = false → t.hw.rqt = q ∧ t.hw.lbc.priority = x :: s.hw.lbc.priority)
      ∧ (s.hw.scu.flushing = true → t.hw.lbc.priority = s.hw.lbc.priority
        ∧ (x.endFlag = false → t.hw.rqt = { q with outstanding := q.outstanding - 1 })
        ∧ (x.endFlag = true →
            t.hw.rqt =
              { q with outstanding := q.outstanding - 1, phase := q.phase.map fun _ => .sending })))

/-- A self-homed request that has reached a free home, taken with no waiter and no stalled lock, from a slot with no
offer: it is decided as the lock transaction it replaces, applied at once, and its response handed to the RQT
(R52), where it stands until it is taken (log 21). With waiters, stalled locks or an offer, the offer is
withdrawn, the locks changed are evaluated and the stalled-lock pass follows (R54, steps 3 to 5); the answers to
the offers this makes reach the free home, and are taken by their own command (log 5), and the responses handed for
an own slot are taken before its offer (log 11). A response taken for a slot whose owed-response mark is set is
discarded, and the mark cleared (R156). -/
def Obligations.SelfHomedRequestServed : Prop :=
  (∀ (s : State) (q : Request) (rest : List Claim), s.hw.htu.engaged = .free →
    s.hw.htu.arriving = .selfRequest q :: rest → s.hw.htu.waiters = [] → s.hw.htu.stalled = [] →
    (∀ e ∈ s.hw.htu.holders, e.station = q.station → e.slot = q.slot → e.state = .held) →
    (q.kind = .acquire ∨ q.kind = .release ∨ q.kind = .downgrade ∨ q.kind = .cancel) →
    let d := decideRequest s.hw.home s.hw.htu q
    ∃ t, exec .selfHomedRequest s = .next t
    ∧ t.hw.htu = { s.hw.htu.change d.2 with arriving := rest }
    ∧ t.hw.rqt =
        { s.hw.rqt with
          responses := s.hw.rqt.responses ++ [{ slot := q.slot, kind := q.kind, response := d.1 }] }
    ∧ t.hw.lbc = s.hw.lbc ∧ t.hw.cqu = s.hw.cqu ∧ sameOutside s.hw t.hw)
  ∧ (∀ (s : State) (q : Request) (rest : List Claim), s.hw.htu.engaged = .free →
    s.hw.htu.arriving = .selfRequest q :: rest →
    (q.kind = .acquire ∨ q.kind = .release ∨ q.kind = .downgrade ∨ q.kind = .cancel) →
    let d := decideRequest s.hw.home s.hw.htu q
    ∃ t, exec .selfHomedRequest s = .next t
    ∧ decisionMade d.2
        { s.hw with
          htu := { s.hw.htu with arriving := rest }
          rqt := { s.hw.rqt with
            responses := s.hw.rqt.responses ++ [{ slot := q.slot, kind := q.kind, response := d.1 }] } }
        t.hw)
  ∧ ∀ (s : State) (n : SlotId) (older younger : List SelfResponse) (p : SelfResponse),
    s.hw.rqt.responses = older ++ p :: younger → (∀ v ∈ older, v.slot ≠ n) → p.slot = n →
    (s.hw.rqt.slot n).owed = true →
    exec (.selfHomedResponse n) s = .next { s with
      hw := { s.hw with
        rqt :=
          ({ s.hw.rqt with responses := older ++ younger }).setSlot n
            { s.hw.rqt.slot n with owed := false } } }

/-- The outcome of an offer, from the lockbus (R64 to R68) or from the own RQT (R70), taken by a free home. Without a
matching OFFERED entry nothing changes but the claim; with one, at a home without waiters or stalled locks,
ACCEPT makes it HELD and anything else removes it, and with them its lock is then evaluated at a home that serves,
and the stalled-lock pass follows (R9, R65, R66), the responses handed for an own slot taken before its offer (log
11). At the unvoided completion of the own GRANT, with no claim
waiting (R15, R64): the home is free, the posted count falls, and unless a purge is in progress the oldest backlog
offer is posted in its place; its outcome reaches the free home, and is taken by its own command (log 5). -/
def Obligations.OfferOutcomes : Prop :=
  (∀ (s : State) (c : Instr) (p : StationId) (n : SlotId) (l : LockId) (m : Mode) (accepted : Bool)
    (claim : Claim) (rest : List Claim),
    (c = .internalGrantOutcome ∧ claim = .internalOutcome n l m accepted ∧ p = s.hw.id
      ∨ c = .grantOutcome ∧ ∃ y, claim = .grantOutcome p n l m y
          ∧ (y = .answered .accept ↔ accepted = true)) →
    s.hw.htu.engaged = .free → s.hw.htu.arriving = claim :: rest →
    let offered (e : Holder) : Bool := isOfferTo (indexOf l) p n e
    let settled : Htu :=
      { s.hw.htu with
        arriving := rest
        holders :=
          if accepted then
            s.hw.htu.holders.map fun e =>
              if offered e then { e with state := .held, posted := none } else e
          else s.hw.htu.holders.filter fun e => !offered e }
    ((∀ e ∈ s.hw.htu.holders, offered e = false) →
      exec c s = .next { s with hw := { s.hw with htu := { s.hw.htu with arriving := rest } } })
    ∧ ((∃ e ∈ s.hw.htu.holders, offered e = true) → s.hw.htu.waiters = [] → s.hw.htu.stalled = [] →
      exec c s = .next { s with hw := { s.hw with htu := settled } })
    ∧ ((∃ e ∈ s.hw.htu.holders, offered e = true) → ∃ t, exec c s = .next t
      ∧ evaluatedAfter (· = indexOf l) { s.hw with htu := settled } t.hw))
  ∧ ∀ (s : State) (r : TxRecord) (x : Transaction) (o : Lines) (ef : Bool),
    ownCompletion s r x o → x.kind = .grant → ¬voided r o → settle r ≠ .void → s.hw.htu.claims = [] →
    let departed : Htu :=
      { s.hw.htu with
        engaged := .free, decision := none, posted := s.hw.htu.posted - 1
        arriving :=
          s.hw.htu.arriving ++ [.grantOutcome x.target x.targetSlot x.lock x.mode (settle r)] }
    let becomes (u : Htu) (listed : List Transaction) : Prop :=
      exec (.completion o ef) s = .next { s with
        hw := { s.hw with
          mbu := { s.hw.mbu with wonMark := true }
          htu := u
          lbc := { s.hw.lbc with record := none, priority := listed } } }
    (s.hw.htu.purge.isSome = true ∨ s.hw.htu.backlog = [] → becomes departed s.hw.lbc.priority)
    ∧ ∀ w rest, s.hw.htu.purge = none → s.hw.htu.backlog = w :: rest → s.hw.htu.posted ≤ 8 →
        becomes
          { departed with
            posted := s.hw.htu.posted - 1 + 1, backlog := rest
            holders := s.hw.htu.holders.map fun e =>
              if isOfferTo w.index w.station w.slot e then { e with posted := some true } else e }
          (s.hw.lbc.priority ++
            [{ kind := .grant, mode := w.mode, lock := lockAt s.hw.id w.index, target := w.station
               targetSlot := w.slot }])

/-- After its evaluation a lock has no offer due: its queue is empty, or its head conflicts with its holders, or no
holder entry is free; other locks' queues are as they were, and its own has lost entries at the head only
(R10, R12, R13). Each waiter that left stands OFFERED at the end of the holder table, in the queue's order (R11):
an own slot's offer was delivered internally (R17), another station's GRANT is listed and counted as posted, or
the offer stands in the backlog (R14). The offers are made one after another (`offersTaken`), each to a head in a
compatible mode, while a holder entry is free, and the tracker answers an own slot's offer by the rows of R90: ACCEPT
makes the hold HELD and ends the ACQUIRE with ACQUIRED, DECLINE leaves slot and hold as they are (R92). That the
answer to an own slot's offer stands untaken at a free home, for its own command to take, is log 5; that the
responses handed for the slot are taken before the offer is log 11. -/
def Obligations.EvaluationLeavesNoOfferDue : Prop :=
  ∀ (i : LockIndex) (h : Hw),
    let g := evaluate i h
    let queueOf (t : Htu) : List Waiter := t.waiters.filter (·.index = i)
    let key (e : Holder) : Waiter := { index := e.index, station := e.station, slot := e.slot, mode := e.mode }
    let grant (e : Holder) : Transaction :=
      { kind := .grant, mode := e.mode, lock := lockAt h.id i, target := e.station, targetSlot := e.slot }
    (∀ w, headWaiter i g.htu = some w →
      (∃ e ∈ g.htu.holders, e.index = i ∧ ¬(w.mode = .shared ∧ e.mode = .shared))
        ∨ 512 ≤ g.htu.holders.length)
    ∧ (∀ j, j ≠ i → g.htu.waiters.filter (·.index = j) = h.htu.waiters.filter (·.index = j))
    ∧ (∃ new, offersTaken new h g)
    ∧ ∃ (new : List Holder) (answers : List Claim) (placed : List Transaction),
        queueOf h.htu = new.map key ++ queueOf g.htu
        ∧ g.htu.holders = h.htu.holders ++ new ∧ (∀ e ∈ new, e.state = .offered)
        ∧ claimsReceived answers h.htu g.htu ∧ g.lbc.priority = h.lbc.priority ++ placed
        ∧ (∀ e ∈ new, e.station = h.id → e.posted = none
            ∧ ∃ accepted, .internalOutcome e.slot (lockAt h.id i) e.mode accepted ∈ answers)
        ∧ (∀ e ∈ new, e.station ≠ h.id → e.posted = some true ∨ e.posted = some false)
        ∧ g.htu.posted = h.htu.posted + new.countP (·.posted = some true)
        ∧ placed.filter (·.kind = .grant) = (new.filter (·.posted = some true)).map grant
        ∧ g.htu.backlog = h.htu.backlog ++ (new.filter (·.posted = some false)).map key

/-- The taking of a purge cause (R18, R19, R23): discarded by an INACTIVE home; else every entry of the station is
removed, entries of others stand, the removed entries are counted, and the home is engaged. Exactly the GRANTs of
the removed posted offers leave the priority list, and exactly the removed offers not posted leave the backlog
(R16), each GRANT lowering the posted count by one (R15), and nothing is posted in their place: where each GRANT
to the station, and each of its places in the backlog, has its OFFERED entry (R14), none is left, and every other
one stays. -/
def Obligations.PurgeCauseTaken : Prop :=
  ∀ (s : State) (p : StationId) (ev : Bool) (rest : List Claim), s.hw.htu.engaged = .free →
    s.hw.htu.arriving = .purgeCause p ev :: rest →
    let offer (posted : Bool) (i : LockIndex) (n : SlotId) : Prop :=
      ∃ e ∈ s.hw.htu.holders, e.station = p ∧ e.state = .offered ∧ e.posted = some posted ∧ e.index = i
        ∧ e.slot = n
    let withdrawn (x : Transaction) : Prop :=
      x.kind = .grant ∧ x.target = p ∧ ∃ i, x.lock = lockAt s.hw.id i ∧ offer true i x.targetSlot
    (s.hw.home = .inactive →
      exec .purgeCause s = .next { s with hw := { s.hw with htu := { s.hw.htu with arriving := rest } } })
    ∧ (s.hw.home ≠ .inactive → ∃ t g, exec .purgeCause s = .next t ∧ t.hw.htu.purge = some g
      ∧ g.station = p ∧ g.evict = ev ∧ g.rebuild = false ∧ t.hw.htu.engaged = .purge
      ∧ t.hw.htu.holders = s.hw.htu.holders.filter (·.station ≠ p)
      ∧ t.hw.htu.waiters = s.hw.htu.waiters.filter (·.station ≠ p)
      ∧ g.removed =
          s.hw.htu.waiters.countP (·.station = p) + s.hw.htu.holders.countP (·.station = p)
      ∧ (∀ i, i ∈ g.touched ↔ (∃ w ∈ s.hw.htu.waiters, w.station = p ∧ w.index = i)
          ∨ ∃ e ∈ s.hw.htu.holders, e.station = p ∧ e.index = i)
      ∧ t.hw.htu.posted ≤ s.hw.htu.posted ∧ postedLowered s.hw t.hw p
      ∧ t.hw.htu.claims = s.hw.htu.claims ++ rest ∧ t.hw.htu.arriving = []
      ∧ t.hw.lbc.priority.Sublist s.hw.lbc.priority
      ∧ (∀ x ∈ s.hw.lbc.priority, x ∈ t.hw.lbc.priority ↔ ¬withdrawn x)
      ∧ t.hw.htu.backlog.Sublist s.hw.htu.backlog
      ∧ (∀ w ∈ s.hw.htu.backlog,
          w ∈ t.hw.htu.backlog ↔ ¬(w.station = p ∧ offer false w.index w.slot))
      ∧ ((∀ x ∈ s.hw.lbc.priority, x.kind = .grant → x.target = p → withdrawn x) →
          t.hw.lbc.priority = s.hw.lbc.priority.filter fun x => ¬(x.kind = .grant ∧ x.target = p))
      ∧ ((∀ w ∈ s.hw.htu.backlog, w.station = p → offer false w.index w.slot) →
          t.hw.htu.backlog = s.hw.htu.backlog.filter (·.station ≠ p))
      ∧ t.hw.lbc.normal = s.hw.lbc.normal ∧ t.hw.lbc.record = s.hw.lbc.record
      ∧ t.hw.rqt = s.hw.rqt ∧ t.hw.cqu = s.hw.cqu ∧ sameOutside s.hw t.hw)

/-- The end of a purge with no claim waiting (R21, R22): an EVICT naming the station stands at the tail exactly when
the cause calls for one, something was removed and none is listed already; the backlog empty and no lock
stalled or waited for, nothing else changes but the purge. In general the end of the last purge of a cause refills
from the backlog, and a home that serves then evaluates the touched locks and those stalled (R21, steps 2 and 3,
R13); a home that rebuilds evaluates nothing. The end of a purge of a rebuild expiry raises REBUILD_EVICTED with
its station; then the next station is purged, in the ascending order of the list, or, after the last, the home
goes SERVING and the station ONLINE, and ONLINE is raised (R139). That purges left go on in LEAVING, without ONLINE
at their end, is log 24; that a walk is made in one step is log 10. Where claims waited, their taking follows, one
after another, until one engages the home or the list is empty (R23, R53); the answers to the offers made here
reach a home that is free then (R69), and are taken by their own command (log 5); the responses handed for an own
slot are taken before its offer (log 11). -/
def Obligations.PurgeEndQueuesEvict : Prop :=
  (∀ (s : State) (g : Purge), s.hw.htu.purge = some g → g.rebuild = false → s.hw.htu.claims = [] →
    s.hw.htu.backlog = [] → s.hw.htu.waiters = [] → s.hw.htu.stalled = [] →
    let listed := ∃ x ∈ s.hw.lbc.priority, x.kind = .evict ∧ x.target = g.station
    ∃ t, exec .purgeEnd s = .next t
    ∧ t.hw.htu = { s.hw.htu with purge := none, engaged := .free }
    ∧ (g.evict = true → 0 < g.removed → ¬listed →
        t.hw.lbc = { s.hw.lbc with
          priority := s.hw.lbc.priority ++ [{ kind := .evict, target := g.station }] })
    ∧ (¬(g.evict = true ∧ 0 < g.removed ∧ ¬listed) → t.hw.lbc = s.hw.lbc)
    ∧ t.hw.rqt = s.hw.rqt ∧ t.hw.cqu = s.hw.cqu ∧ sameOutside s.hw t.hw)
  ∧ ∀ (s : State) (g : Purge), s.hw.htu.purge = some g →
    let closed := purgeClosed g s.hw
    let events :=
      if g.rebuild = true then { s.hw.cqu.events with rebuildEvicted := some g.station } else s.hw.cqu.events
    let queue := if s.hw.cqu.events = .empty then s.hw.cqu.queue ++ [.station] else s.hw.cqu.queue
    let visited (i : LockIndex) : Prop := i ∈ g.touched ∨ i ∈ s.hw.htu.stalled
    ((.rebuildExpiry ∈ s.hw.htu.claims → s.hw.htu.rebuildTimer = none) → takesWaiting .purgeEnd s [])
    ∧ (g.rebuild = false ∨ g.rest = [] → s.hw.htu.claims = [] → ∃ t, exec .purgeEnd s = .next t
      ∧ t.hw.mbu = s.hw.mbu ∧ t.hw.port = s.hw.port
      ∧ (s.hw.home = .serving → t.hw.htu.purge = none ∧ t.hw.htu.engaged = .free
        ∧ offersMade visited closed t.hw ∧ (∀ i, visited i → noOfferDue i t.hw)
        ∧ t.hw.scu = s.hw.scu ∧ t.hw.cqu.events = events
        ∧ ∃ v new, offersTaken new closed v ∧ t.hw = { v with cqu := t.hw.cqu }
          ∧ (g.rebuild = false → t.hw = v)
          ∧ (g.rebuild = true → t.hw.cqu.queue =
              if s.hw.cqu.events = .empty then v.cqu.queue ++ [.station] else v.cqu.queue))
      ∧ (s.hw.home ≠ .serving → g.rebuild = false → t = { s with hw := closed })
      ∧ (s.hw.home = .rebuilding → g.rebuild = true →
        t.hw.htu = { closed.htu with rebuildTimer := none } ∧ t.hw.lbc = closed.lbc ∧ t.hw.rqt = s.hw.rqt
        ∧ t.hw.scu = { s.hw.scu with station := .online }
        ∧ t.hw.cqu.events = { events with online := true } ∧ t.hw.cqu.queue = queue))
    ∧ (g.rebuild = true → ∀ p rest, g.rest = p :: rest → ∃ t g', exec .purgeEnd s = .next t
      ∧ t.hw.htu.purge = some g' ∧ t.hw.htu.engaged = .purge ∧ g'.station = p ∧ g'.evict = true
      ∧ g'.rebuild = true ∧ g'.rest = rest
      ∧ (∀ e ∈ t.hw.htu.holders, e.station ≠ p) ∧ (∀ w ∈ t.hw.htu.waiters, w.station ≠ p)
      ∧ t.hw.cqu.events = events ∧ sameOutside s.hw t.hw
      ∧ (s.hw.home = .rebuilding → stationWalked closed t.hw p g'
        ∧ t.hw.htu.claims = s.hw.htu.claims ++ s.hw.htu.arriving ∧ t.hw.htu.arriving = []
        ∧ t.hw.htu.rebuildTimer = s.hw.htu.rebuildTimer ∧ t.hw.rqt = s.hw.rqt ∧ t.hw.cqu.queue = queue))

/-! ### Timers -/

/-- The expiry of a running wait timer acts with cause TIMEOUT by the slot's state (R89; `cancelRows` lists the
rows); a timer that is not running, and an aborted slot's, expire to nothing (R156; log 4). That a CANCEL that
reaches a free own home is taken by its own command is log 5. -/
def Obligations.WaitTimerExpiry : Prop :=
  ∀ (s : State) (n : SlotId) (o : Operation),
    ((s.hw.rqt.slot n).waitTimer = none ∨ (s.hw.rqt.slot n).aborted = true →
      exec (.waitTimerExpiry n) s = .next s)
    ∧ ((s.hw.rqt.slot n).waitTimer.isSome = true → (s.hw.rqt.slot n).aborted = false →
      (s.hw.rqt.slot n).operation = some o → o.op = .acquire →
      cancelRows (.waitTimerExpiry n) s n o .timeout (s.hw.rqt.slot n).refusal)

/-- The expiry of a backoff timer issues the operation, an ACQUIRE or a DOWNGRADE, again with the same lock, mode
and try flag (R84, R88). That the command acts whatever time its timer has left is the model's choice (log 4),
and that a request that reaches a free own home is taken by its own command is log 5. -/
def Obligations.BackoffExpiryReissues : Prop :=
  ∀ (s : State) (n : SlotId) (o : Operation) (k : Kind) (m : Mode) (f : Bool),
    let r := s.hw.rqt.slot n
    r.state = .backoff → r.backoffTimer.isSome = true → r.aborted = false → r.operation = some o →
    (o.op = .acquire ∧ k = .acquire ∧ o.mode = some m ∧ f = o.tryFlag
      ∨ o.op = .downgrade ∧ k = .downgrade ∧ m = .shared ∧ f = false) →
    ∃ t, exec (.backoffTimerExpiry n) s = .next t
    ∧ (homeOf o.lock ≠ s.hw.id →
        t.hw.rqt.slot n = { r with state := .queuedOut, backoffTimer := none }
        ∧ t.hw.lbc.normal =
            s.hw.lbc.normal ++
              [{ kind := k, slot := n, mode := m, tryFlag := f, lock := o.lock }]
        ∧ t.hw.htu = s.hw.htu)
    ∧ (homeOf o.lock = s.hw.id →
        t.hw.rqt.slot n = { r with state := .onBus, backoffTimer := none } ∧ t.hw.lbc = s.hw.lbc
        ∧ t.hw.htu =
            received
              (.selfRequest
                { kind := k, station := s.hw.id, slot := n, index := indexOf o.lock, mode := m
                  tryFlag := f, endFlag := false })
              s.hw.htu)
    ∧ sameSlotsBut n s.hw.rqt t.hw.rqt ∧ t.hw.rqt.holds = s.hw.rqt.holds ∧ sameWalk s.hw.rqt t.hw.rqt
    ∧ t.hw.cqu = s.hw.cqu ∧ sameOutside s.hw t.hw

/-- The expiry of the running beacon timer: a BEACON is placed only when the won-arbitration mark is clear and none
is listed or on the lockbus; the mark is cleared and the timer runs on with period P (R116). That the command acts
whatever time the timer has left is the model's choice (log 4). -/
def Obligations.BeaconTimerExpiry : Prop :=
  ∀ s : State, s.hw.mbu.beaconTimer.isSome = true →
    let out := (∃ x ∈ s.hw.lbc.normal, x.kind = .beacon)
      ∨ ∃ r x, s.hw.lbc.record = some r ∧ r.entry = some x ∧ x.kind = .beacon
    ∃ t, exec .beaconTimerExpiry s = .next t
    ∧ t.hw.mbu =
        { s.hw.mbu with wonMark := false, beaconTimer := some (Config.beaconPeriod s.hw.scu.bpsel) }
    ∧ (s.hw.mbu.wonMark = false → ¬out →
        t.hw.lbc = { s.hw.lbc with normal := s.hw.lbc.normal ++ [{ kind := .beacon }] })
    ∧ (s.hw.mbu.wonMark = true ∨ out → t.hw.lbc = s.hw.lbc)
    ∧ t.hw.scu = s.hw.scu ∧ t.hw.htu = s.hw.htu ∧ t.hw.rqt = s.hw.rqt ∧ t.hw.cqu = s.hw.cqu
    ∧ t.hw.port = s.hw.port

/-- A peer declared LOST (R120): the record LOST, a purge cause with an EVICT handed to the home (a free
one takes it by its own command, log 5), the waits on the peer's locks failed (R95), PEER_LOST raised, and an
awaited peer taken out of the awaited set, which ends a rebuild when it empties (R137); every hold stays but the
reservations of the waits that end (R81), and the walker is not told. It happens with no transaction of the peer
open, or in the place of R121 where the completion of its transaction is due (log 27). A sighting taken first has
started the timer from zero, and then the expiry does not happen (R121; log 4). -/
def Obligations.SilenceDeclaresLost : Prop :=
  ∀ (s : State) (p : StationId) (ef : Bool),
    ((s.hw.mbu.member p).timer = some 0 → exec (.silenceTimerExpiry p ef) s = .next s)
    ∧ ∀ k, (s.hw.mbu.member p).timer = some k → 0 < k →
    (s.hw.mbu.member p).state = .present → p ≠ s.hw.id → s.hw.home ≠ .inactive →
    (silenceHeld p s.hw = false
      ∨ ∃ r, s.hw.lbc.record = some r ∧ r.winner = p ∧ r.phase = .completion) →
    holdTableLaw s.hw.rqt.holds →
    let home := received (.purgeCause p true) s.hw.htu
    let left := s.hw.htu.awaited &&& ~~~(BitVec.twoPow 16 p.val)
    let awaits := s.hw.home = .rebuilding ∧ s.hw.htu.awaited.getLsbD p.val = true
    ∃ t, exec (.silenceTimerExpiry p ef) s = .next t
    ∧ t.hw.mbu.member p = ⟨.lost, none⟩ ∧ (∀ v, v ≠ p → t.hw.mbu.member v = s.hw.mbu.member v)
    ∧ t.hw.mbu.beaconTimer = s.hw.mbu.beaconTimer ∧ t.hw.mbu.wonMark = s.hw.mbu.wonMark
    ∧ (¬awaits → t.hw.htu = home ∧ t.hw.scu = s.hw.scu
        ∧ t.hw.cqu.events = { s.hw.cqu.events with peerLost := some p })
    ∧ (awaits → left ≠ 0 → t.hw.htu = { home with awaited := left }
        ∧ t.hw.scu = s.hw.scu ∧ t.hw.cqu.events = { s.hw.cqu.events with peerLost := some p })
    ∧ (awaits → left = 0 →
        t.hw.htu = { home with awaited := 0, rebuildTimer := none }
        ∧ t.hw.scu = { s.hw.scu with station := .online }
        ∧ t.hw.cqu.events = { s.hw.cqu.events with peerLost := some p, online := true })
    ∧ waitsFailed s t p ∧ otherSlotsKept s t p
    ∧ (∀ e ∈ s.hw.rqt.holds, e.2.state ≠ .reserved → e ∈ t.hw.rqt.holds)
    ∧ reservationsSettled s t t.hw.rqt.holds
    ∧ t.hw.rqt.waitLimits = s.hw.rqt.waitLimits ∧ t.hw.rqt.homes = s.hw.rqt.homes
    ∧ t.hw.rqt.phase = s.hw.rqt.phase ∧ t.hw.rqt.outstanding = s.hw.rqt.outstanding
    ∧ t.hw.rqt.responses = s.hw.rqt.responses
    ∧ t.hw.lbc.priority = s.hw.lbc.priority ∧ t.hw.lbc.record = s.hw.lbc.record
    ∧ t.hw.port = s.hw.port

/-- The end of the listen window: JOINING, and the JOIN at the tail of the normal list (R133). That the command acts
whatever time the window has left is the model's choice (log 4). -/
def Obligations.ListenWindowEnds : Prop :=
  ∀ s : State, s.hw.scu.station = .listening → s.hw.scu.listenTimer.isSome = true →
    exec .listenWindowExpiry s = .next { s with
      hw := { s.hw with
        scu := { s.hw.scu with station := .joining, listenTimer := none }
        lbc := { s.hw.lbc with normal := s.hw.lbc.normal ++ [{ kind := .join }] } } }

/-- The rebuild timer expiry (R139): handed as a claim behind those that wait at an engaged home, and behind those
that have reached a free one and are not yet taken (log 5); taken at once by a free home that no other claim has
reached: in REBUILDING it empties the awaited set and purges the awaited stations, the lowest ID first: the walk
removes its entries (R19; in one step, log 10); in any other state nothing. An expiry already handed is taken
when it is the oldest, and with neither nothing happens. That the command acts whatever time the timer has left is
the model's choice (log 4). -/
def Obligations.RebuildTimerExpiry : Prop :=
  ∀ (s : State) (rest : List Claim),
    let t0 : Htu := { s.hw.htu with rebuildTimer := none }
    let expired := s.hw.htu.rebuildTimer.isSome = true
    let oldest := s.hw.htu.engaged = .free
      ∧ (expired ∧ s.hw.htu.arriving = [] ∧ rest = []
        ∨ s.hw.htu.rebuildTimer = none ∧ s.hw.htu.arriving = .rebuildExpiry :: rest)
    (expired → (s.hw.htu.engaged ≠ .free
        ∨ ∃ c ∈ s.hw.htu.arriving.head?, c ≠ .rebuildExpiry) →
      exec .rebuildTimerExpiry s = .next { s with
        hw := { s.hw with htu := received .rebuildExpiry t0 } })
    ∧ (s.hw.htu.rebuildTimer = none →
        s.hw.htu.engaged ≠ .free ∨ s.hw.htu.arriving.head? ≠ some .rebuildExpiry →
        exec .rebuildTimerExpiry s = .next s)
    ∧ (oldest → s.hw.home ≠ .rebuilding → exec .rebuildTimerExpiry s = .next { s with
        hw := { s.hw with htu := { t0 with arriving := rest } } })
    ∧ (oldest → s.hw.home = .rebuilding →
        ∀ p : StationId, s.hw.htu.awaited.getLsbD p.val = true →
          (∀ v : StationId, s.hw.htu.awaited.getLsbD v.val = true → p.val ≤ v.val) →
          ∃ t g, exec .rebuildTimerExpiry s = .next t ∧ t.hw.htu.purge = some g ∧ g.station = p
            ∧ g.evict = true ∧ g.rebuild = true
            ∧ (∀ v, v ∈ g.rest ↔ v ≠ p ∧ s.hw.htu.awaited.getLsbD v.val = true)
            ∧ g.rest.Pairwise (fun v w => v.val < w.val)
            ∧ t.hw.htu.awaited = 0 ∧ t.hw.htu.rebuildTimer = none ∧ t.hw.htu.engaged = .purge
            ∧ t.hw.htu.claims = s.hw.htu.claims ++ rest ∧ t.hw.htu.arriving = []
            ∧ stationWalked s.hw t.hw p g
            ∧ t.hw.rqt = s.hw.rqt ∧ t.hw.cqu = s.hw.cqu ∧ sameOutside s.hw t.hw)

/-- A PULSE line that ends one pulse and its gap owes one pulse less, and starts the next while it owes any. An append
raises the count of the PULSE line its entry is routed to, to 255 at most, and starts a pulse where none is in
progress; a pulse in progress goes on, and no other line is marked (R106, R108). That the command ends a pulse
whatever time it and its gap have left is the model's choice (log 4); that the count takes in the pulse in progress
is DEDUCED (log 25). -/
def Obligations.PulsesOwed : Prop :=
  (∀ (s : State) (k : LineId), s.hw.scu.lineModes.get k = .pulse →
    (s.hw.cqu.lines.get k).phase ≠ .idle → ∃ t, exec (.notifyPulse k) s = .next t
    ∧ (t.hw.cqu.lines.get k).owed = (s.hw.cqu.lines.get k).owed - 1
    ∧ ((t.hw.cqu.lines.get k).phase = .high ↔ 1 < (s.hw.cqu.lines.get k).owed)
    ∧ ((t.hw.cqu.lines.get k).phase = .idle ↔ (s.hw.cqu.lines.get k).owed ≤ 1)
    ∧ (lineAsserted t.hw k = true ↔ 1 < (s.hw.cqu.lines.get k).owed)
    ∧ (∀ j, j ≠ k → t.hw.cqu.lines.get j = s.hw.cqu.lines.get j)
    ∧ t = { s with hw := { s.hw with cqu := { s.hw.cqu with lines := t.hw.cqu.lines } } })
  ∧ ∀ (h : Hw) (e : QueueEntry),
    let g := appendEntry e h
    g = { h with cqu := { h.cqu with queue := h.cqu.queue ++ [e], lines := g.cqu.lines } }
    ∧ ∀ k : LineId,
      let old := h.cqu.lines.get k
      let new := g.cqu.lines.get k
      let marked := routedTo h.scu e = .line k ∧ h.scu.lineModes.get k = .pulse
      (marked → new.owed = min (old.owed + 1) 255
        ∧ (old.phase = .idle → new.phase = .high ∧ lineAsserted g k = true)
        ∧ (old.phase ≠ .idle → new.phase = old.phase))
      ∧ (¬marked → new = old)

/-! ### Joining, leaving, flush and eviction at a completion -/

/-- The three new states at the unvoided completion of the own JOIN (R135), the home's content as it leaves
INACTIVE (R3), and the membership unit's part (R119). The other way into DUPLICATE: a completion won by the own ID
that this station only observes, in LISTENING or JOINING, voided or not (R126, R127). While the station is present
such a completion changes nothing at the membership unit and raises no event there (R128), and its JOIN or LEAVE
has none of the effects of R136 or R150; only an unvoided PURGE, whose source is this station, brings the home its
cause (R161), which a free home takes by its own command (log 5), and an unvoided EVICT naming this station acts
as R124 gives. -/
def Obligations.OwnJoinCompletes : Prop :=
  (∀ (s : State) (r : TxRecord) (x : Transaction) (o : Lines) (ef : Bool) (j : BitVec 16),
    ownCompletion s r x o → x.kind = .join → ¬voided r o → s.hw.scu.station = .joining →
    r.presence = some j → ∃ t, exec (.completion o ef) s = .next t
    ∧ t.hw.lbc.record = none ∧ t.hw.rqt = s.hw.rqt
    ∧ (j.getLsbD s.hw.id.val = true → t.hw.scu.station = .duplicate
        ∧ t.hw.cqu.events = { s.hw.cqu.events with duplicateId := true } ∧ t.hw.htu = s.hw.htu
        ∧ t.hw.mbu.beaconTimer = none ∧ ∀ p, (t.hw.mbu.member p).timer = none)
    ∧ (j.getLsbD s.hw.id.val = false →
        (j ≠ 0 → t.hw.scu.station = .rebuilding
          ∧ t.hw.htu =
              { s.hw.htu with
                holders := [], waiters := [], backlog := [], stalled := []
                awaited := j, rebuildTimer := some (4 * Config.beaconPeriod s.hw.scu.bpsel) }
          ∧ t.hw.cqu.events = { s.hw.cqu.events with joined := true })
        ∧ (j = 0 → t.hw.scu.station = .online
          ∧ t.hw.htu =
              { s.hw.htu with
                holders := [], waiters := [], backlog := [], stalled := [], awaited := 0
                rebuildTimer := none }
          ∧ t.hw.cqu.events = { s.hw.cqu.events with online := true })
        ∧ t.hw.mbu.beaconTimer = some (Config.beaconPeriod s.hw.scu.bpsel) ∧ t.hw.mbu.wonMark = true
        ∧ ∀ p, p ≠ s.hw.id →
            (j.getLsbD p.val = true ∨ (s.hw.mbu.member p).state = .present →
              t.hw.mbu.member p = ⟨.present, some 0⟩)
            ∧ (j.getLsbD p.val = false → (s.hw.mbu.member p).state ≠ .present →
              t.hw.mbu.member p = s.hw.mbu.member p)))
  ∧ (∀ (s : State) (r : TxRecord) (o : Lines) (ef : Bool), s.hw.lbc.record = some r →
    r.phase = .completion → r.winner = s.hw.id → r.role = .observer →
    (s.hw.scu.station = .listening ∨ s.hw.scu.station = .joining) →
    ∃ t, exec (.completion o ef) s = .next t
    ∧ t.hw.scu = { s.hw.scu with station := .duplicate, listenTimer := none }
    ∧ t.hw.lbc =
        { s.hw.lbc with record := none, normal := s.hw.lbc.normal.filter (·.kind ≠ .join) }
    ∧ (∀ p, t.hw.mbu.member p = { s.hw.mbu.member p with timer := none })
    ∧ t.hw.mbu.beaconTimer = none ∧ t.hw.mbu.wonMark = s.hw.mbu.wonMark
    ∧ t.hw.cqu.events = { s.hw.cqu.events with duplicateId := true }
    ∧ t.hw.cqu.queue =
        (if s.hw.cqu.events = .empty then s.hw.cqu.queue ++ [.station] else s.hw.cqu.queue)
    ∧ t.hw.htu = s.hw.htu ∧ t.hw.rqt = s.hw.rqt ∧ t.hw.port = s.hw.port)
  ∧ ∀ (s : State) (r : TxRecord) (o : Lines) (ef : Bool), atCompletion s r →
    r.winner = s.hw.id → r.role = .observer → s.hw.scu.station.present = true →
    let carries (k : Kind) : Prop := ¬voided r o ∧ ∃ x, recordRequest r = some x ∧ x.kind = k
    let named := ¬voided r o ∧ ∃ x, recordRequest r = some x ∧ x.kind = .evict ∧ x.target = s.hw.id
    (∃ t, exec (.completion o ef) s = .next t ∧ t.hw.mbu = s.hw.mbu ∧ t.hw.scu = s.hw.scu
      ∧ t.hw.lbc.record = none)
    ∧ (¬carries .purge → ¬named → exec (.completion o ef) s = .next { s with
        hw := { s.hw with lbc := { s.hw.lbc with record := none } } })
    ∧ (carries .purge → exec (.completion o ef) s = .next { s with
        hw := { s.hw with
          lbc := { s.hw.lbc with record := none }
          htu := received (.purgeCause s.hw.id false) s.hw.htu } })

/-- The unvoided completion of the own LEAVE (R149): OFFLINE, unfrozen, the home, the lists, the membership and the
tracker at their reset values but for refusal codes and parameter registers, LEFT raised, the queue else
unchanged. -/
def Obligations.OwnLeaveCompletes : Prop :=
  ∀ (s : State) (r : TxRecord) (x : Transaction) (o : Lines) (ef : Bool), ownCompletion s r x o →
    x.kind = .leave → ¬voided r o → ∃ t, exec (.completion o ef) s = .next t
    ∧ t.hw.scu =
        { s.hw.scu with
          station := .offline, flushing := false, frozen := false, listenTimer := none }
    ∧ t.hw.htu.inactive ∧ t.hw.lbc = .reset ∧ t.hw.mbu = .reset
    ∧ (∀ n, t.hw.rqt.slot n = .idleWith (s.hw.rqt.slot n).refusal false)
    ∧ t.hw.rqt.holds = [] ∧ t.hw.rqt.homes = [] ∧ t.hw.rqt.phase = none ∧ t.hw.rqt.outstanding = 0
    ∧ t.hw.rqt.answer = none ∧ t.hw.rqt.waitLimits = s.hw.rqt.waitLimits
    ∧ t.hw.cqu.events = { s.hw.cqu.events with left := true }
    ∧ t.hw.cqu.queue =
        (if s.hw.cqu.events = .empty then s.hw.cqu.queue ++ [.station] else s.hw.cqu.queue)
    ∧ t.hw.port = s.hw.port

/-- The unvoided completion of the own PURGE (R162): the flag cleared, aborted slots IDLE with their owed marks kept,
FLUSH_DONE raised, the walker going on from the phase it had (R159), the LEAVE placed when the station is LEAVING, and
the home given its own purge cause, which a free one takes by its own command (log 5). -/
def Obligations.OwnPurgeEndsFlush : Prop :=
  ∀ (s : State) (r : TxRecord) (x : Transaction) (o : Lines) (ef : Bool), ownCompletion s r x o →
    x.kind = .purge → ¬voided r o → s.hw.scu.station.present = true →
    ∃ t, exec (.completion o ef) s = .next t
    ∧ t.hw.scu = { s.hw.scu with flushing := false }
    ∧ (∀ n, (s.hw.rqt.slot n).aborted = true →
        t.hw.rqt.slot n = .idleWith (s.hw.rqt.slot n).refusal (s.hw.rqt.slot n).owed)
    ∧ (∀ n, (s.hw.rqt.slot n).aborted = false → t.hw.rqt.slot n = s.hw.rqt.slot n)
    ∧ t.hw.cqu.events = { s.hw.cqu.events with flushDone := true }
    ∧ t.hw.rqt.homes = s.hw.rqt.homes
    ∧ (∃ new, walkGoesOn s.hw.rqt.phase t.hw new
        ∧ walkerPlaced s.hw.rqt.holds s.hw.lbc.priority s.hw.rqt.outstanding t.hw new)
    ∧ t.hw.lbc.normal =
        (if s.hw.scu.station = .leaving then s.hw.lbc.normal ++ [{ kind := .leave }]
        else s.hw.lbc.normal)
    ∧ t.hw.htu = received (.purgeCause s.hw.id false) s.hw.htu

/-- The unvoided JOIN of a peer that is not in its own presence set, at a station that is present (R136): a
sighting, a purge cause without EVICT (taken by its own command at a free home, log 5), PEER_JOINED, the waits on
the peer's locks issued again (R96), a place for the peer at the tail of the walker's list unless it has one, and
an end to its place in the awaited set (R137); the walk of the peer begins where the list was empty, and starts
again where the peer was its head: its REASSERTs listed go, the count falls by them, its holds' marks are cleared
(R142, R143). Of the reservations those of the waits that end here, and no others, go (R81), at a LEAVE too. A JOIN
whose source is in its own presence set is a sighting and nothing more. The unvoided LEAVE of a peer there (R122,
R150): its record ABSENT in place of the sighting, a purge cause without EVICT, PEER_LEFT, the waits on its locks
failed, holds kept (R95), and its places in the walker's list and in the awaited set gone; where it was the list's
head, its REASSERTs listed go, the count is 0, its holds' marks are cleared, and the next home is walked (R145). At
a station in LISTENING or JOINING, the record alone. The unvoided PURGE of a peer (R161): a sighting, and at a home
that is REBUILDING or SERVING a purge cause of its source without EVICT; at an INACTIVE home the sighting alone;
nothing else changes, the awaited set among it. -/
def Obligations.PeerJoinObserved : Prop :=
  (∀ (s : State) (r : TxRecord) (x : Transaction) (o : Lines) (ef : Bool) (j : BitVec 16),
    peerCompletion s r x → x.kind = .join → ¬voided r o → r.presence = some j →
    (j.getLsbD r.winner.val = true →
      s.hw.scu.station.present = true ∨ s.hw.scu.station = .listening ∨ s.hw.scu.station = .joining →
      exec (.completion o ef) s = .next { s with
        hw := { s.hw with
          lbc := { s.hw.lbc with record := none }
          mbu := s.hw.mbu.setMember r.winner
            ⟨.present, if s.hw.scu.station.present = true then some 0 else none⟩ } })
    ∧ (j.getLsbD r.winner.val = false → s.hw.scu.station.present = true →
      ∃ t, exec (.completion o ef) s = .next t
      ∧ t.hw.mbu.member r.winner = ⟨.present, some 0⟩
      ∧ unawaited s t r.winner
          (received (.purgeCause r.winner false) s.hw.htu)
          { s.hw.cqu.events with peerJoined := some r.winner }
      ∧ t.hw.rqt.homes =
          (if r.winner ∈ s.hw.rqt.homes then s.hw.rqt.homes else s.hw.rqt.homes ++ [r.winner])
      ∧ (holdTableLaw s.hw.rqt.holds → ∃ holds new, reservationsGone s.hw.rqt.holds holds
        ∧ reservationsSettled s t holds
        ∧ (s.hw.rqt.homes = [] → walkBegun t.hw new
          ∧ walkerPlaced holds s.hw.lbc.priority s.hw.rqt.outstanding t.hw new)
        ∧ (s.hw.rqt.homes.head? = some r.winner → walkBegun t.hw new
          ∧ walkerPlaced (clearMarks r.winner holds) (withoutReasserts r.winner s.hw.lbc.priority)
              (s.hw.rqt.outstanding - reassertsListed r.winner s.hw.lbc.priority) t.hw new)
        ∧ (s.hw.rqt.homes ≠ [] → s.hw.rqt.homes.head? ≠ some r.winner →
          sameWalkBut s.hw t.hw ∧ t.hw.rqt.holds = holds))
      ∧ (∀ n q m, onHome s r.winner n q → (s.hw.rqt.slot n).state = .waiting → q.op = .acquire →
          q.mode = some m →
          t.hw.rqt.slot n = { s.hw.rqt.slot n with state := .queuedOut }
          ∧ { kind := .acquire, slot := n, mode := m, tryFlag := q.tryFlag, lock := q.lock }
              ∈ t.hw.lbc.normal)
      ∧ cancelsRemoved s t r.winner ∧ otherSlotsKept s t r.winner)
    ∧ (j.getLsbD r.winner.val = false → s.hw.scu.station = .listening ∨ s.hw.scu.station = .joining →
      ∃ t, exec (.completion o ef) s = .next t
      ∧ t.hw.mbu.member r.winner = ⟨.present, none⟩
      ∧ t.hw.htu = s.hw.htu ∧ t.hw.rqt = s.hw.rqt ∧ t.hw.cqu = s.hw.cqu ∧ t.hw.scu = s.hw.scu))
  ∧ (∀ (s : State) (r : TxRecord) (x : Transaction) (o : Lines) (ef : Bool),
    peerCompletion s r x → x.kind = .purge → ¬voided r o →
    exec (.completion o ef) s = .next { s with
      hw := { s.hw with
        lbc := { s.hw.lbc with record := none }
        mbu := s.hw.mbu.setMember r.winner
          ⟨.present, if s.hw.scu.station.present = true then some 0 else none⟩
        htu :=
          if s.hw.home = .inactive then s.hw.htu
          else received (.purgeCause r.winner false) s.hw.htu } })
  ∧ ∀ (s : State) (r : TxRecord) (x : Transaction) (o : Lines) (ef : Bool),
    peerCompletion s r x → x.kind = .leave → ¬voided r o →
    (s.hw.scu.station.present = true → holdTableLaw s.hw.rqt.holds → ∃ t, exec (.completion o ef) s = .next t
      ∧ t.hw.mbu.member r.winner = ⟨.absent, none⟩
      ∧ (∀ p, p ≠ r.winner → t.hw.mbu.member p = s.hw.mbu.member p)
      ∧ unawaited s t r.winner
          (received (.purgeCause r.winner false) s.hw.htu)
          { s.hw.cqu.events with peerLeft := some r.winner }
      ∧ waitsFailed s t r.winner ∧ otherSlotsKept s t r.winner
      ∧ t.hw.rqt.homes = s.hw.rqt.homes.erase r.winner
      ∧ (∃ holds new, reservationsGone s.hw.rqt.holds holds ∧ reservationsSettled s t holds
        ∧ (s.hw.rqt.homes.head? = some r.winner →
          walkerPlaced (clearMarks r.winner holds) (withoutReasserts r.winner s.hw.lbc.priority) 0 t.hw new
          ∧ (t.hw.rqt.homes = [] → t.hw.rqt.phase = none) ∧ (t.hw.rqt.homes ≠ [] → walkBegun t.hw new))
        ∧ (s.hw.rqt.homes.head? ≠ some r.winner → sameWalkBut s.hw t.hw ∧ t.hw.rqt.holds = holds))
      ∧ (∀ e ∈ s.hw.rqt.holds, e.2.state ≠ .reserved →
          ∃ e' ∈ t.hw.rqt.holds, e' = (e.1, { e.2 with mark := e'.2.mark }))
      ∧ t.hw.port = s.hw.port)
    ∧ (s.hw.scu.station = .listening ∨ s.hw.scu.station = .joining →
      ∃ t, exec (.completion o ef) s = .next t
      ∧ t.hw.mbu = s.hw.mbu.setMember r.winner ⟨.absent, none⟩
      ∧ t.hw.lbc = { s.hw.lbc with record := none }
      ∧ t.hw.htu = s.hw.htu ∧ t.hw.rqt = s.hw.rqt ∧ t.hw.cqu = s.hw.cqu ∧ t.hw.scu = s.hw.scu)

/-- An unvoided EVICT that names this station (R93, R124): its HELD entries on the home's locks become REVOKED, each
such slot has a NOTICE unread, EVICTED_BY is raised with the home; entries in other states on those locks
keep their state, but the reservations of waits that end are removed (R81); other homes' entries are untouched.
WAITING slots on those locks end with HOME_EVICTED, and CANCELs are removed as R86 gives. -/
def Obligations.EvictRevokesHolds : Prop :=
  ∀ (s : State) (r : TxRecord) (x : Transaction) (o : Lines) (ef : Bool), peerCompletion s r x →
    x.kind = .evict → x.target = s.hw.id → ¬voided r o → s.hw.scu.station.present = true →
    holdTableLaw s.hw.rqt.holds → ∃ t, exec (.completion o ef) s = .next t
    ∧ (∀ p ∈ s.hw.rqt.holds, homeOf p.2.lock = r.winner → p.2.state = .held →
        (p.1, { p.2 with state := .revoked }) ∈ t.hw.rqt.holds ∧ t.hw.cqu.notice p.2.slot = true)
    ∧ (∀ p ∈ s.hw.rqt.holds, homeOf p.2.lock = r.winner → p.2.state ≠ .held →
        p.2.state ≠ .reserved → p ∈ t.hw.rqt.holds)
    ∧ reservationsSettled s t t.hw.rqt.holds
    ∧ (∀ p ∈ s.hw.rqt.holds, homeOf p.2.lock ≠ r.winner → p ∈ t.hw.rqt.holds)
    ∧ (∀ n q, onHome s r.winner n q → (s.hw.rqt.slot n).state = .waiting →
        endedWith s t n q .homeEvicted)
    ∧ cancelsRemoved s t r.winner ∧ otherSlotsKept s t r.winner
    ∧ t.hw.cqu.events = { s.hw.cqu.events with evictedBy := some r.winner }
    ∧ t.hw.mbu.member r.winner = ⟨.present, some 0⟩
    ∧ t.hw.htu = s.hw.htu ∧ t.hw.scu = s.hw.scu ∧ t.hw.lbc.priority = s.hw.lbc.priority

/-! ### The laws every step keeps -/

/-- Every step keeps the law of the local hold table (R73, R174). -/
def Obligations.HoldTableLawKept : Prop :=
  ∀ s t : State, holdTableLaw s.hw.rqt.holds → step s = .next t → holdTableLaw t.hw.rqt.holds

/-- Every step keeps the law of the station state (R112, R130, R137, R173, R180). -/
def Obligations.StationLawKept : Prop :=
  ∀ s t : State, stationLaw s.hw → step s = .next t → stationLaw t.hw

/-- Every step keeps the counts within their ceilings (R14, R108, R141), the completion queue's law (one RESULT
and one NOTICE a slot, the STATION entry exactly while an event is raised: R81, R98, R100, R103), the walker's law
(R141, R143), and, at a lawful home, the capacities of its tables, 512 holders and 192 waiters (R5, R7), and the
law of its waits, by which, while it serves and purges nobody, no lock has an offer due (R13), and the law of its
clients: one holder entry on a lock (R5) and one wait or offer (R8) for each, so the entries of a client that a
decision acts on are single. -/
def Obligations.CountLawKept : Prop :=
  (∀ s t : State, countLaw s.hw → step s = .next t → countLaw t.hw)
  ∧ (∀ s t : State, queueLaw s.hw → step s = .next t → queueLaw t.hw)
  ∧ (∀ s t : State, walkerLaw s.hw → step s = .next t → walkerLaw t.hw)
  ∧ (∀ s t : State, homeLaw s.hw → capacityLaw s.hw → step s = .next t → capacityLaw t.hw)
  ∧ (∀ s t : State, homeLaw s.hw → offerLaw s.hw → step s = .next t → offerLaw t.hw)
  ∧ (∀ s t : State, homeLaw s.hw → offerLaw s.hw → clientLaw s.hw → step s = .next t → clientLaw t.hw)
  ∧ (∀ h : Hw, clientLaw h → ∀ (i : LockIndex) (p : StationId) (n : SlotId),
    (∀ e ∈ h.htu.holders, ∀ f ∈ h.htu.holders, e.index = i ∧ e.station = p ∧ e.slot = n →
      f.index = i ∧ f.station = p ∧ f.slot = n → e = f)
    ∧ ∀ w ∈ h.htu.waiters, ∀ v ∈ h.htu.waiters, w.station = p ∧ w.slot = n →
      v.station = p ∧ v.slot = n → w = v)
  ∧ ∀ h : Hw, offerLaw h → h.home = .serving → h.htu.purge = none → ∀ i, noOfferDue i h

/-- Every step keeps a home's locks exclusive (R6), with the engagement that makes it so (R23, R24, R33):
`engagementLaw`, where a claim that has reached a free home is taken by its own command (log 5), and the decision
on a transaction that engages the home is made by its own command or by the close (log 6). -/
def Obligations.ExclusiveHoldsKept : Prop :=
  ∀ s t : State, homeLaw s.hw → step s = .next t → homeLaw t.hw
end

