-- ==== Sys2Proof/Laws/State.lean ====
section
/-! SUPPORT. What each update of the state leaves and writes: one lemma per field per update, each true by
unfolding, so that no proof unfolds a record update. -/

namespace Sys2Proof.Machine

variable (h : Hw)

/-! ### setSlot -/

@[simp] theorem setSlot_scu (n : SlotId) (r : SlotRecord) : (h.setSlot n r).scu = h.scu := rfl
@[simp] theorem setSlot_lbc (n : SlotId) (r : SlotRecord) : (h.setSlot n r).lbc = h.lbc := rfl
@[simp] theorem setSlot_htu (n : SlotId) (r : SlotRecord) : (h.setSlot n r).htu = h.htu := rfl
@[simp] theorem setSlot_mbu (n : SlotId) (r : SlotRecord) : (h.setSlot n r).mbu = h.mbu := rfl
@[simp] theorem setSlot_cqu (n : SlotId) (r : SlotRecord) : (h.setSlot n r).cqu = h.cqu := rfl
@[simp] theorem setSlot_port (n : SlotId) (r : SlotRecord) : (h.setSlot n r).port = h.port := rfl
@[simp] theorem setSlot_holds (n : SlotId) (r : SlotRecord) : (h.setSlot n r).rqt.holds = h.rqt.holds := rfl
@[simp] theorem setSlot_answer (n : SlotId) (r : SlotRecord) : (h.setSlot n r).rqt.answer = h.rqt.answer := rfl
@[simp] theorem setSlot_waitLimits (n : SlotId) (r : SlotRecord) : (h.setSlot n r).rqt.waitLimits = h.rqt.waitLimits := rfl
@[simp] theorem setSlot_homes (n : SlotId) (r : SlotRecord) : (h.setSlot n r).rqt.homes = h.rqt.homes := rfl
@[simp] theorem setSlot_phase (n : SlotId) (r : SlotRecord) : (h.setSlot n r).rqt.phase = h.rqt.phase := rfl
@[simp] theorem setSlot_outstanding (n : SlotId) (r : SlotRecord) : (h.setSlot n r).rqt.outstanding = h.rqt.outstanding := rfl
@[simp] theorem setSlot_responses (n : SlotId) (r : SlotRecord) : (h.setSlot n r).rqt.responses = h.rqt.responses := rfl

/-! ### setHolds -/

@[simp] theorem setHolds_scu (t : List (Nat × Hold)) : (h.setHolds t).scu = h.scu := rfl
@[simp] theorem setHolds_lbc (t : List (Nat × Hold)) : (h.setHolds t).lbc = h.lbc := rfl
@[simp] theorem setHolds_htu (t : List (Nat × Hold)) : (h.setHolds t).htu = h.htu := rfl
@[simp] theorem setHolds_mbu (t : List (Nat × Hold)) : (h.setHolds t).mbu = h.mbu := rfl
@[simp] theorem setHolds_cqu (t : List (Nat × Hold)) : (h.setHolds t).cqu = h.cqu := rfl
@[simp] theorem setHolds_port (t : List (Nat × Hold)) : (h.setHolds t).port = h.port := rfl
@[simp] theorem setHolds_slots (t : List (Nat × Hold)) : (h.setHolds t).rqt.slots = h.rqt.slots := rfl
@[simp] theorem setHolds_holds (t : List (Nat × Hold)) : (h.setHolds t).rqt.holds = t := rfl
@[simp] theorem setHolds_answer (t : List (Nat × Hold)) : (h.setHolds t).rqt.answer = h.rqt.answer := rfl
@[simp] theorem setHolds_waitLimits (t : List (Nat × Hold)) : (h.setHolds t).rqt.waitLimits = h.rqt.waitLimits := rfl
@[simp] theorem setHolds_homes (t : List (Nat × Hold)) : (h.setHolds t).rqt.homes = h.rqt.homes := rfl
@[simp] theorem setHolds_phase (t : List (Nat × Hold)) : (h.setHolds t).rqt.phase = h.rqt.phase := rfl
@[simp] theorem setHolds_outstanding (t : List (Nat × Hold)) : (h.setHolds t).rqt.outstanding = h.rqt.outstanding := rfl
@[simp] theorem setHolds_responses (t : List (Nat × Hold)) : (h.setHolds t).rqt.responses = h.rqt.responses := rfl

/-! ### lowerOutstanding -/

@[simp] theorem lowerOutstanding_scu (k : Nat) : (lowerOutstanding k h).scu = h.scu := rfl
@[simp] theorem lowerOutstanding_lbc (k : Nat) : (lowerOutstanding k h).lbc = h.lbc := rfl
@[simp] theorem lowerOutstanding_htu (k : Nat) : (lowerOutstanding k h).htu = h.htu := rfl
@[simp] theorem lowerOutstanding_mbu (k : Nat) : (lowerOutstanding k h).mbu = h.mbu := rfl
@[simp] theorem lowerOutstanding_cqu (k : Nat) : (lowerOutstanding k h).cqu = h.cqu := rfl
@[simp] theorem lowerOutstanding_port (k : Nat) : (lowerOutstanding k h).port = h.port := rfl
@[simp] theorem lowerOutstanding_slots (k : Nat) : (lowerOutstanding k h).rqt.slots = h.rqt.slots := rfl
@[simp] theorem lowerOutstanding_holds (k : Nat) : (lowerOutstanding k h).rqt.holds = h.rqt.holds := rfl
@[simp] theorem lowerOutstanding_answer (k : Nat) : (lowerOutstanding k h).rqt.answer = h.rqt.answer := rfl
@[simp] theorem lowerOutstanding_waitLimits (k : Nat) : (lowerOutstanding k h).rqt.waitLimits = h.rqt.waitLimits := rfl
@[simp] theorem lowerOutstanding_homes (k : Nat) : (lowerOutstanding k h).rqt.homes = h.rqt.homes := rfl
@[simp] theorem lowerOutstanding_phase (k : Nat) : (lowerOutstanding k h).rqt.phase = h.rqt.phase := rfl
@[simp] theorem lowerOutstanding_outstanding (k : Nat) : (lowerOutstanding k h).rqt.outstanding = h.rqt.outstanding - k := rfl
@[simp] theorem lowerOutstanding_responses (k : Nat) : (lowerOutstanding k h).rqt.responses = h.rqt.responses := rfl

/-! ### handResponse -/

@[simp] theorem handResponse_scu (p : SelfResponse) : (handResponse p h).scu = h.scu := rfl
@[simp] theorem handResponse_lbc (p : SelfResponse) : (handResponse p h).lbc = h.lbc := rfl
@[simp] theorem handResponse_htu (p : SelfResponse) : (handResponse p h).htu = h.htu := rfl
@[simp] theorem handResponse_mbu (p : SelfResponse) : (handResponse p h).mbu = h.mbu := rfl
@[simp] theorem handResponse_cqu (p : SelfResponse) : (handResponse p h).cqu = h.cqu := rfl
@[simp] theorem handResponse_port (p : SelfResponse) : (handResponse p h).port = h.port := rfl
@[simp] theorem handResponse_slots (p : SelfResponse) : (handResponse p h).rqt.slots = h.rqt.slots := rfl
@[simp] theorem handResponse_holds (p : SelfResponse) : (handResponse p h).rqt.holds = h.rqt.holds := rfl
@[simp] theorem handResponse_answer (p : SelfResponse) : (handResponse p h).rqt.answer = h.rqt.answer := rfl
@[simp] theorem handResponse_waitLimits (p : SelfResponse) : (handResponse p h).rqt.waitLimits = h.rqt.waitLimits := rfl
@[simp] theorem handResponse_homes (p : SelfResponse) : (handResponse p h).rqt.homes = h.rqt.homes := rfl
@[simp] theorem handResponse_phase (p : SelfResponse) : (handResponse p h).rqt.phase = h.rqt.phase := rfl
@[simp] theorem handResponse_outstanding (p : SelfResponse) : (handResponse p h).rqt.outstanding = h.rqt.outstanding := rfl
@[simp] theorem handResponse_responses (p : SelfResponse) : (handResponse p h).rqt.responses = h.rqt.responses ++ [p] := rfl

/-! ### writeParameter -/

@[simp] theorem writeParameter_scu (n : SlotId) (v : Word) : (writeParameter n v h).scu = h.scu := rfl
@[simp] theorem writeParameter_lbc (n : SlotId) (v : Word) : (writeParameter n v h).lbc = h.lbc := rfl
@[simp] theorem writeParameter_htu (n : SlotId) (v : Word) : (writeParameter n v h).htu = h.htu := rfl
@[simp] theorem writeParameter_mbu (n : SlotId) (v : Word) : (writeParameter n v h).mbu = h.mbu := rfl
@[simp] theorem writeParameter_cqu (n : SlotId) (v : Word) : (writeParameter n v h).cqu = h.cqu := rfl
@[simp] theorem writeParameter_port (n : SlotId) (v : Word) : (writeParameter n v h).port = h.port := rfl
@[simp] theorem writeParameter_slots (n : SlotId) (v : Word) : (writeParameter n v h).rqt.slots = h.rqt.slots := rfl
@[simp] theorem writeParameter_holds (n : SlotId) (v : Word) : (writeParameter n v h).rqt.holds = h.rqt.holds := rfl
@[simp] theorem writeParameter_answer (n : SlotId) (v : Word) : (writeParameter n v h).rqt.answer = h.rqt.answer := rfl
@[simp] theorem writeParameter_homes (n : SlotId) (v : Word) : (writeParameter n v h).rqt.homes = h.rqt.homes := rfl
@[simp] theorem writeParameter_phase (n : SlotId) (v : Word) : (writeParameter n v h).rqt.phase = h.rqt.phase := rfl
@[simp] theorem writeParameter_outstanding (n : SlotId) (v : Word) : (writeParameter n v h).rqt.outstanding = h.rqt.outstanding := rfl
@[simp] theorem writeParameter_responses (n : SlotId) (v : Word) : (writeParameter n v h).rqt.responses = h.rqt.responses := rfl

/-! ### setMember -/

@[simp] theorem setMember_scu (p : StationId) (m : Member) : (h.setMember p m).scu = h.scu := rfl
@[simp] theorem setMember_lbc (p : StationId) (m : Member) : (h.setMember p m).lbc = h.lbc := rfl
@[simp] theorem setMember_htu (p : StationId) (m : Member) : (h.setMember p m).htu = h.htu := rfl
@[simp] theorem setMember_rqt (p : StationId) (m : Member) : (h.setMember p m).rqt = h.rqt := rfl
@[simp] theorem setMember_cqu (p : StationId) (m : Member) : (h.setMember p m).cqu = h.cqu := rfl
@[simp] theorem setMember_port (p : StationId) (m : Member) : (h.setMember p m).port = h.port := rfl
@[simp] theorem setMember_beaconTimer (p : StationId) (m : Member) : (h.setMember p m).mbu.beaconTimer = h.mbu.beaconTimer := rfl
@[simp] theorem setMember_wonMark (p : StationId) (m : Member) : (h.setMember p m).mbu.wonMark = h.mbu.wonMark := rfl

/-! ### addClaim -/

@[simp] theorem addClaim_scu (c : Claim) : (addClaim c h).scu = h.scu := rfl
@[simp] theorem addClaim_lbc (c : Claim) : (addClaim c h).lbc = h.lbc := rfl
@[simp] theorem addClaim_rqt (c : Claim) : (addClaim c h).rqt = h.rqt := rfl
@[simp] theorem addClaim_mbu (c : Claim) : (addClaim c h).mbu = h.mbu := rfl
@[simp] theorem addClaim_cqu (c : Claim) : (addClaim c h).cqu = h.cqu := rfl
@[simp] theorem addClaim_port (c : Claim) : (addClaim c h).port = h.port := rfl
@[simp] theorem addClaim_htu (c : Claim) : (addClaim c h).htu = h.htu.receive c := rfl

/-! ### Htu.receive -/

@[simp] theorem receive_holders (c : Claim) (u : Htu) : (u.receive c).holders = u.holders := by
  unfold Htu.receive; split <;> rfl
@[simp] theorem receive_waiters (c : Claim) (u : Htu) : (u.receive c).waiters = u.waiters := by
  unfold Htu.receive; split <;> rfl
@[simp] theorem receive_backlog (c : Claim) (u : Htu) : (u.receive c).backlog = u.backlog := by
  unfold Htu.receive; split <;> rfl
@[simp] theorem receive_posted (c : Claim) (u : Htu) : (u.receive c).posted = u.posted := by
  unfold Htu.receive; split <;> rfl
@[simp] theorem receive_stalled (c : Claim) (u : Htu) : (u.receive c).stalled = u.stalled := by
  unfold Htu.receive; split <;> rfl
@[simp] theorem receive_purge (c : Claim) (u : Htu) : (u.receive c).purge = u.purge := by
  unfold Htu.receive; split <;> rfl
@[simp] theorem receive_engaged (c : Claim) (u : Htu) : (u.receive c).engaged = u.engaged := by
  unfold Htu.receive; split <;> rfl
@[simp] theorem receive_decision (c : Claim) (u : Htu) : (u.receive c).decision = u.decision := by
  unfold Htu.receive; split <;> rfl
@[simp] theorem receive_awaited (c : Claim) (u : Htu) : (u.receive c).awaited = u.awaited := by
  unfold Htu.receive; split <;> rfl
@[simp] theorem receive_rebuildTimer (c : Claim) (u : Htu) : (u.receive c).rebuildTimer = u.rebuildTimer := by
  unfold Htu.receive; split <;> rfl

/-- A claim that reaches a free home does not enter the list (R53). -/
theorem receive_atFree {u : Htu} (hu : u.engaged = .free) (c : Claim) :
    u.receive c = { u with arriving := u.arriving ++ [c] } := if_pos hu

/-- A claim that reaches an engaged home waits at the tail of the list (R23, R53). -/
theorem receive_atEngaged {u : Htu} (hu : u.engaged ≠ .free) (c : Claim) :
    u.receive c = { u with claims := u.claims ++ [c] } := if_neg hu

/-! ### Htu.engage, Htu.freed -/

@[simp] theorem engage_holders (e : Engagement) (u : Htu) : (u.engage e).holders = u.holders := rfl
@[simp] theorem engage_waiters (e : Engagement) (u : Htu) : (u.engage e).waiters = u.waiters := rfl
@[simp] theorem engage_backlog (e : Engagement) (u : Htu) : (u.engage e).backlog = u.backlog := rfl
@[simp] theorem engage_posted (e : Engagement) (u : Htu) : (u.engage e).posted = u.posted := rfl
@[simp] theorem engage_stalled (e : Engagement) (u : Htu) : (u.engage e).stalled = u.stalled := rfl
@[simp] theorem engage_purge (e : Engagement) (u : Htu) : (u.engage e).purge = u.purge := rfl
@[simp] theorem engage_engaged (e : Engagement) (u : Htu) : (u.engage e).engaged = e := rfl
@[simp] theorem engage_decision (e : Engagement) (u : Htu) : (u.engage e).decision = u.decision := rfl
@[simp] theorem engage_awaited (e : Engagement) (u : Htu) : (u.engage e).awaited = u.awaited := rfl
@[simp] theorem engage_rebuildTimer (e : Engagement) (u : Htu) : (u.engage e).rebuildTimer = u.rebuildTimer := rfl
@[simp] theorem engage_claims (e : Engagement) (u : Htu) : (u.engage e).claims = u.claims ++ u.arriving := rfl
@[simp] theorem engage_arriving (e : Engagement) (u : Htu) : (u.engage e).arriving = [] := rfl
@[simp] theorem freed_holders (u : Htu) : u.freed.holders = u.holders := rfl
@[simp] theorem freed_waiters (u : Htu) : u.freed.waiters = u.waiters := rfl
@[simp] theorem freed_backlog (u : Htu) : u.freed.backlog = u.backlog := rfl
@[simp] theorem freed_posted (u : Htu) : u.freed.posted = u.posted := rfl
@[simp] theorem freed_stalled (u : Htu) : u.freed.stalled = u.stalled := rfl
@[simp] theorem freed_purge (u : Htu) : u.freed.purge = u.purge := rfl
@[simp] theorem freed_engaged (u : Htu) : u.freed.engaged = .free := rfl
@[simp] theorem freed_decision (u : Htu) : u.freed.decision = none := rfl
@[simp] theorem freed_awaited (u : Htu) : u.freed.awaited = u.awaited := rfl
@[simp] theorem freed_rebuildTimer (u : Htu) : u.freed.rebuildTimer = u.rebuildTimer := rfl
@[simp] theorem freed_claims (u : Htu) : u.freed.claims = u.claims := rfl
@[simp] theorem freed_arriving (u : Htu) : u.freed.arriving = u.arriving := rfl

/-! ### unstall -/

@[simp] theorem unstall_scu (i : LockIndex) : (unstall i h).scu = h.scu := rfl
@[simp] theorem unstall_lbc (i : LockIndex) : (unstall i h).lbc = h.lbc := rfl
@[simp] theorem unstall_rqt (i : LockIndex) : (unstall i h).rqt = h.rqt := rfl
@[simp] theorem unstall_mbu (i : LockIndex) : (unstall i h).mbu = h.mbu := rfl
@[simp] theorem unstall_cqu (i : LockIndex) : (unstall i h).cqu = h.cqu := rfl
@[simp] theorem unstall_port (i : LockIndex) : (unstall i h).port = h.port := rfl
@[simp] theorem unstall_holders (i : LockIndex) : (unstall i h).htu.holders = h.htu.holders := rfl
@[simp] theorem unstall_waiters (i : LockIndex) : (unstall i h).htu.waiters = h.htu.waiters := rfl
@[simp] theorem unstall_backlog (i : LockIndex) : (unstall i h).htu.backlog = h.htu.backlog := rfl
@[simp] theorem unstall_posted (i : LockIndex) : (unstall i h).htu.posted = h.htu.posted := rfl
@[simp] theorem unstall_stalled (i : LockIndex) : (unstall i h).htu.stalled = h.htu.stalled.erase i := rfl
@[simp] theorem unstall_purge (i : LockIndex) : (unstall i h).htu.purge = h.htu.purge := rfl
@[simp] theorem unstall_engaged (i : LockIndex) : (unstall i h).htu.engaged = h.htu.engaged := rfl
@[simp] theorem unstall_claims (i : LockIndex) : (unstall i h).htu.claims = h.htu.claims := rfl
@[simp] theorem unstall_arriving (i : LockIndex) : (unstall i h).htu.arriving = h.htu.arriving := rfl
@[simp] theorem unstall_decision (i : LockIndex) : (unstall i h).htu.decision = h.htu.decision := rfl
@[simp] theorem unstall_awaited (i : LockIndex) : (unstall i h).htu.awaited = h.htu.awaited := rfl
@[simp] theorem unstall_rebuildTimer (i : LockIndex) : (unstall i h).htu.rebuildTimer = h.htu.rebuildTimer := rfl

/-! ### placeNormal -/

@[simp] theorem placeNormal_scu (t : Transaction) : (placeNormal t h).scu = h.scu := rfl
@[simp] theorem placeNormal_htu (t : Transaction) : (placeNormal t h).htu = h.htu := rfl
@[simp] theorem placeNormal_rqt (t : Transaction) : (placeNormal t h).rqt = h.rqt := rfl
@[simp] theorem placeNormal_mbu (t : Transaction) : (placeNormal t h).mbu = h.mbu := rfl
@[simp] theorem placeNormal_cqu (t : Transaction) : (placeNormal t h).cqu = h.cqu := rfl
@[simp] theorem placeNormal_port (t : Transaction) : (placeNormal t h).port = h.port := rfl
@[simp] theorem placeNormal_pointer (t : Transaction) : (placeNormal t h).lbc.pointer = h.lbc.pointer := rfl
@[simp] theorem placeNormal_normal (t : Transaction) : (placeNormal t h).lbc.normal = h.lbc.normal ++ [t] := rfl
@[simp] theorem placeNormal_priority (t : Transaction) : (placeNormal t h).lbc.priority = h.lbc.priority := rfl
@[simp] theorem placeNormal_record (t : Transaction) : (placeNormal t h).lbc.record = h.lbc.record := rfl

/-! ### placePriority -/

@[simp] theorem placePriority_scu (t : Transaction) : (placePriority t h).scu = h.scu := rfl
@[simp] theorem placePriority_htu (t : Transaction) : (placePriority t h).htu = h.htu := rfl
@[simp] theorem placePriority_rqt (t : Transaction) : (placePriority t h).rqt = h.rqt := rfl
@[simp] theorem placePriority_mbu (t : Transaction) : (placePriority t h).mbu = h.mbu := rfl
@[simp] theorem placePriority_cqu (t : Transaction) : (placePriority t h).cqu = h.cqu := rfl
@[simp] theorem placePriority_port (t : Transaction) : (placePriority t h).port = h.port := rfl
@[simp] theorem placePriority_pointer (t : Transaction) : (placePriority t h).lbc.pointer = h.lbc.pointer := rfl
@[simp] theorem placePriority_normal (t : Transaction) : (placePriority t h).lbc.normal = h.lbc.normal := rfl
@[simp] theorem placePriority_priority (t : Transaction) : (placePriority t h).lbc.priority = h.lbc.priority ++ [t] := rfl
@[simp] theorem placePriority_record (t : Transaction) : (placePriority t h).lbc.record = h.lbc.record := rfl

/-! ### returnNormal -/

@[simp] theorem returnNormal_scu (t : Transaction) : (returnNormal t h).scu = h.scu := rfl
@[simp] theorem returnNormal_htu (t : Transaction) : (returnNormal t h).htu = h.htu := rfl
@[simp] theorem returnNormal_rqt (t : Transaction) : (returnNormal t h).rqt = h.rqt := rfl
@[simp] theorem returnNormal_mbu (t : Transaction) : (returnNormal t h).mbu = h.mbu := rfl
@[simp] theorem returnNormal_cqu (t : Transaction) : (returnNormal t h).cqu = h.cqu := rfl
@[simp] theorem returnNormal_port (t : Transaction) : (returnNormal t h).port = h.port := rfl
@[simp] theorem returnNormal_pointer (t : Transaction) : (returnNormal t h).lbc.pointer = h.lbc.pointer := rfl
@[simp] theorem returnNormal_normal (t : Transaction) : (returnNormal t h).lbc.normal = t :: h.lbc.normal := rfl
@[simp] theorem returnNormal_priority (t : Transaction) : (returnNormal t h).lbc.priority = h.lbc.priority := rfl
@[simp] theorem returnNormal_record (t : Transaction) : (returnNormal t h).lbc.record = h.lbc.record := rfl

/-! ### returnPriority -/

@[simp] theorem returnPriority_scu (t : Transaction) : (returnPriority t h).scu = h.scu := rfl
@[simp] theorem returnPriority_htu (t : Transaction) : (returnPriority t h).htu = h.htu := rfl
@[simp] theorem returnPriority_rqt (t : Transaction) : (returnPriority t h).rqt = h.rqt := rfl
@[simp] theorem returnPriority_mbu (t : Transaction) : (returnPriority t h).mbu = h.mbu := rfl
@[simp] theorem returnPriority_cqu (t : Transaction) : (returnPriority t h).cqu = h.cqu := rfl
@[simp] theorem returnPriority_port (t : Transaction) : (returnPriority t h).port = h.port := rfl
@[simp] theorem returnPriority_pointer (t : Transaction) : (returnPriority t h).lbc.pointer = h.lbc.pointer := rfl
@[simp] theorem returnPriority_normal (t : Transaction) : (returnPriority t h).lbc.normal = h.lbc.normal := rfl
@[simp] theorem returnPriority_priority (t : Transaction) : (returnPriority t h).lbc.priority = t :: h.lbc.priority := rfl
@[simp] theorem returnPriority_record (t : Transaction) : (returnPriority t h).lbc.record = h.lbc.record := rfl

/-! ### removeNormal -/

@[simp] theorem removeNormal_scu (k : Transaction → Bool) : (removeNormal k h).scu = h.scu := rfl
@[simp] theorem removeNormal_htu (k : Transaction → Bool) : (removeNormal k h).htu = h.htu := rfl
@[simp] theorem removeNormal_rqt (k : Transaction → Bool) : (removeNormal k h).rqt = h.rqt := rfl
@[simp] theorem removeNormal_mbu (k : Transaction → Bool) : (removeNormal k h).mbu = h.mbu := rfl
@[simp] theorem removeNormal_cqu (k : Transaction → Bool) : (removeNormal k h).cqu = h.cqu := rfl
@[simp] theorem removeNormal_port (k : Transaction → Bool) : (removeNormal k h).port = h.port := rfl
@[simp] theorem removeNormal_pointer (k : Transaction → Bool) : (removeNormal k h).lbc.pointer = h.lbc.pointer := rfl
@[simp] theorem removeNormal_normal (k : Transaction → Bool) : (removeNormal k h).lbc.normal = h.lbc.normal.filter fun t => !k t := rfl
@[simp] theorem removeNormal_priority (k : Transaction → Bool) : (removeNormal k h).lbc.priority = h.lbc.priority := rfl
@[simp] theorem removeNormal_record (k : Transaction → Bool) : (removeNormal k h).lbc.record = h.lbc.record := rfl

/-! ### removePriority -/

@[simp] theorem removePriority_scu (k : Transaction → Bool) : (removePriority k h).scu = h.scu := rfl
@[simp] theorem removePriority_htu (k : Transaction → Bool) : (removePriority k h).htu = h.htu := rfl
@[simp] theorem removePriority_rqt (k : Transaction → Bool) : (removePriority k h).rqt = h.rqt := rfl
@[simp] theorem removePriority_mbu (k : Transaction → Bool) : (removePriority k h).mbu = h.mbu := rfl
@[simp] theorem removePriority_cqu (k : Transaction → Bool) : (removePriority k h).cqu = h.cqu := rfl
@[simp] theorem removePriority_port (k : Transaction → Bool) : (removePriority k h).port = h.port := rfl
@[simp] theorem removePriority_pointer (k : Transaction → Bool) : (removePriority k h).lbc.pointer = h.lbc.pointer := rfl
@[simp] theorem removePriority_normal (k : Transaction → Bool) : (removePriority k h).lbc.normal = h.lbc.normal := rfl
@[simp] theorem removePriority_priority (k : Transaction → Bool) : (removePriority k h).lbc.priority = h.lbc.priority.filter fun t => !k t := rfl
@[simp] theorem removePriority_record (k : Transaction → Bool) : (removePriority k h).lbc.record = h.lbc.record := rfl

/-! ### setRecord -/

@[simp] theorem setRecord_scu (r : TxRecord) : (setRecord r h).scu = h.scu := rfl
@[simp] theorem setRecord_htu (r : TxRecord) : (setRecord r h).htu = h.htu := rfl
@[simp] theorem setRecord_rqt (r : TxRecord) : (setRecord r h).rqt = h.rqt := rfl
@[simp] theorem setRecord_mbu (r : TxRecord) : (setRecord r h).mbu = h.mbu := rfl
@[simp] theorem setRecord_cqu (r : TxRecord) : (setRecord r h).cqu = h.cqu := rfl
@[simp] theorem setRecord_port (r : TxRecord) : (setRecord r h).port = h.port := rfl
@[simp] theorem setRecord_pointer (r : TxRecord) : (setRecord r h).lbc.pointer = h.lbc.pointer := rfl
@[simp] theorem setRecord_normal (r : TxRecord) : (setRecord r h).lbc.normal = h.lbc.normal := rfl
@[simp] theorem setRecord_priority (r : TxRecord) : (setRecord r h).lbc.priority = h.lbc.priority := rfl
@[simp] theorem setRecord_record (r : TxRecord) : (setRecord r h).lbc.record = some r := rfl

/-! ### closeRecord -/

@[simp] theorem closeRecord_scu : (closeRecord h).scu = h.scu := rfl
@[simp] theorem closeRecord_htu : (closeRecord h).htu = h.htu := rfl
@[simp] theorem closeRecord_rqt : (closeRecord h).rqt = h.rqt := rfl
@[simp] theorem closeRecord_mbu : (closeRecord h).mbu = h.mbu := rfl
@[simp] theorem closeRecord_cqu : (closeRecord h).cqu = h.cqu := rfl
@[simp] theorem closeRecord_port : (closeRecord h).port = h.port := rfl
@[simp] theorem closeRecord_pointer : (closeRecord h).lbc.pointer = h.lbc.pointer := rfl
@[simp] theorem closeRecord_normal : (closeRecord h).lbc.normal = h.lbc.normal := rfl
@[simp] theorem closeRecord_priority : (closeRecord h).lbc.priority = h.lbc.priority := rfl
@[simp] theorem closeRecord_record : (closeRecord h).lbc.record = none := rfl

/-! ### setStatus -/

@[simp] theorem setStatus_lbc (c : CommandStatus) : (setStatus c h).lbc = h.lbc := rfl
@[simp] theorem setStatus_htu (c : CommandStatus) : (setStatus c h).htu = h.htu := rfl
@[simp] theorem setStatus_rqt (c : CommandStatus) : (setStatus c h).rqt = h.rqt := rfl
@[simp] theorem setStatus_mbu (c : CommandStatus) : (setStatus c h).mbu = h.mbu := rfl
@[simp] theorem setStatus_cqu (c : CommandStatus) : (setStatus c h).cqu = h.cqu := rfl
@[simp] theorem setStatus_port (c : CommandStatus) : (setStatus c h).port = h.port := rfl
@[simp] theorem setStatus_station (c : CommandStatus) : (setStatus c h).scu.station = h.scu.station := rfl
@[simp] theorem setStatus_flushing (c : CommandStatus) : (setStatus c h).scu.flushing = h.scu.flushing := rfl
@[simp] theorem setStatus_frozen (c : CommandStatus) : (setStatus c h).scu.frozen = h.scu.frozen := rfl
@[simp] theorem setStatus_listenTimer (c : CommandStatus) : (setStatus c h).scu.listenTimer = h.scu.listenTimer := rfl
@[simp] theorem setStatus_commandStatus (c : CommandStatus) : (setStatus c h).scu.commandStatus = c := rfl
@[simp] theorem setStatus_configStatus (c : CommandStatus) : (setStatus c h).scu.configStatus = h.scu.configStatus := rfl
@[simp] theorem setStatus_id (c : CommandStatus) : (setStatus c h).scu.id = h.scu.id := rfl
@[simp] theorem setStatus_bpsel (c : CommandStatus) : (setStatus c h).scu.bpsel = h.scu.bpsel := rfl
@[simp] theorem setStatus_routes (c : CommandStatus) : (setStatus c h).scu.routes = h.scu.routes := rfl
@[simp] theorem setStatus_stationRoute (c : CommandStatus) : (setStatus c h).scu.stationRoute = h.scu.stationRoute := rfl
@[simp] theorem setStatus_lineModes (c : CommandStatus) : (setStatus c h).scu.lineModes = h.scu.lineModes := rfl
@[simp] theorem setStatus_backoffBase (c : CommandStatus) : (setStatus c h).scu.backoffBase = h.scu.backoffBase := rfl
@[simp] theorem setStatus_attemptLimit (c : CommandStatus) : (setStatus c h).scu.attemptLimit = h.scu.attemptLimit := rfl
@[simp] theorem setStatus_lossThreshold (c : CommandStatus) : (setStatus c h).scu.lossThreshold = h.scu.lossThreshold := rfl

/-! ### setConfigStatus -/

@[simp] theorem setConfigStatus_lbc (c : ConfigStatus) : (setConfigStatus c h).lbc = h.lbc := rfl
@[simp] theorem setConfigStatus_htu (c : ConfigStatus) : (setConfigStatus c h).htu = h.htu := rfl
@[simp] theorem setConfigStatus_rqt (c : ConfigStatus) : (setConfigStatus c h).rqt = h.rqt := rfl
@[simp] theorem setConfigStatus_mbu (c : ConfigStatus) : (setConfigStatus c h).mbu = h.mbu := rfl
@[simp] theorem setConfigStatus_cqu (c : ConfigStatus) : (setConfigStatus c h).cqu = h.cqu := rfl
@[simp] theorem setConfigStatus_port (c : ConfigStatus) : (setConfigStatus c h).port = h.port := rfl
@[simp] theorem setConfigStatus_station (c : ConfigStatus) : (setConfigStatus c h).scu.station = h.scu.station := rfl
@[simp] theorem setConfigStatus_flushing (c : ConfigStatus) : (setConfigStatus c h).scu.flushing = h.scu.flushing := rfl
@[simp] theorem setConfigStatus_frozen (c : ConfigStatus) : (setConfigStatus c h).scu.frozen = h.scu.frozen := rfl
@[simp] theorem setConfigStatus_listenTimer (c : ConfigStatus) : (setConfigStatus c h).scu.listenTimer = h.scu.listenTimer := rfl
@[simp] theorem setConfigStatus_commandStatus (c : ConfigStatus) : (setConfigStatus c h).scu.commandStatus = h.scu.commandStatus := rfl
@[simp] theorem setConfigStatus_configStatus (c : ConfigStatus) : (setConfigStatus c h).scu.configStatus = c := rfl
@[simp] theorem setConfigStatus_id (c : ConfigStatus) : (setConfigStatus c h).scu.id = h.scu.id := rfl
@[simp] theorem setConfigStatus_bpsel (c : ConfigStatus) : (setConfigStatus c h).scu.bpsel = h.scu.bpsel := rfl
@[simp] theorem setConfigStatus_routes (c : ConfigStatus) : (setConfigStatus c h).scu.routes = h.scu.routes := rfl
@[simp] theorem setConfigStatus_stationRoute (c : ConfigStatus) : (setConfigStatus c h).scu.stationRoute = h.scu.stationRoute := rfl
@[simp] theorem setConfigStatus_lineModes (c : ConfigStatus) : (setConfigStatus c h).scu.lineModes = h.scu.lineModes := rfl
@[simp] theorem setConfigStatus_backoffBase (c : ConfigStatus) : (setConfigStatus c h).scu.backoffBase = h.scu.backoffBase := rfl
@[simp] theorem setConfigStatus_attemptLimit (c : ConfigStatus) : (setConfigStatus c h).scu.attemptLimit = h.scu.attemptLimit := rfl
@[simp] theorem setConfigStatus_lossThreshold (c : ConfigStatus) : (setConfigStatus c h).scu.lossThreshold = h.scu.lossThreshold := rfl

/-! ### setReadData -/

@[simp] theorem setReadData_scu (w : Word) : (setReadData w h).scu = h.scu := rfl
@[simp] theorem setReadData_lbc (w : Word) : (setReadData w h).lbc = h.lbc := rfl
@[simp] theorem setReadData_htu (w : Word) : (setReadData w h).htu = h.htu := rfl
@[simp] theorem setReadData_rqt (w : Word) : (setReadData w h).rqt = h.rqt := rfl
@[simp] theorem setReadData_mbu (w : Word) : (setReadData w h).mbu = h.mbu := rfl
@[simp] theorem setReadData_cqu (w : Word) : (setReadData w h).cqu = h.cqu := rfl
@[simp] theorem setReadData_porAsserted (w : Word) : (setReadData w h).port.porAsserted = h.port.porAsserted := rfl
@[simp] theorem setReadData_srstAsserted (w : Word) : (setReadData w h).port.srstAsserted = h.port.srstAsserted := rfl
@[simp] theorem setReadData_readData (w : Word) : (setReadData w h).port.readData = w := rfl

/-! ### setHtu -/

@[simp] theorem setHtu_scu (t : Htu) : (h.setHtu t).scu = h.scu := rfl
@[simp] theorem setHtu_lbc (t : Htu) : (h.setHtu t).lbc = h.lbc := rfl
@[simp] theorem setHtu_htu (t : Htu) : (h.setHtu t).htu = t := rfl
@[simp] theorem setHtu_rqt (t : Htu) : (h.setHtu t).rqt = h.rqt := rfl
@[simp] theorem setHtu_mbu (t : Htu) : (h.setHtu t).mbu = h.mbu := rfl
@[simp] theorem setHtu_cqu (t : Htu) : (h.setHtu t).cqu = h.cqu := rfl
@[simp] theorem setHtu_port (t : Htu) : (h.setHtu t).port = h.port := rfl

/-! ### One slot, one member -/

/-- A vector read by `get` is the vector read by index. -/
theorem get_eq_getElem {α : Type} {k : Nat} (v : Vector α k) (i : Fin k) : v.get i = v[i.val] := rfl

@[simp] theorem slot_setSlot_same (n : SlotId) (r : SlotRecord) : (h.setSlot n r).rqt.slot n = r := by
  simp [Hw.setSlot, Rqt.setSlot, Rqt.slot, get_eq_getElem]

@[simp] theorem slot_setSlot_ne {n m : SlotId} (hne : n ≠ m) (r : SlotRecord) :
    (h.setSlot n r).rqt.slot m = h.rqt.slot m := by
  have : n.val ≠ m.val := fun e => hne (Fin.ext e)
  simp [Hw.setSlot, Rqt.setSlot, Rqt.slot, get_eq_getElem, this]

@[simp] theorem member_setMember_same (p : StationId) (m : Member) :
    (h.setMember p m).mbu.member p = m := by
  simp [Hw.setMember, Mbu.setMember, Mbu.member, get_eq_getElem]

@[simp] theorem member_setMember_ne {p q : StationId} (hne : p ≠ q) (m : Member) :
    (h.setMember p m).mbu.member q = h.mbu.member q := by
  have : p.val ≠ q.val := fun e => hne (Fin.ext e)
  simp [Hw.setMember, Mbu.setMember, Mbu.member, get_eq_getElem, this]

@[simp] theorem member_mapMembers (f : StationId → Member → Member) (m : Mbu) (p : StationId) :
    (m.mapMembers f).member p = f p (m.member p) := by
  simp [Mbu.mapMembers, Mbu.member, get_eq_getElem]

@[simp] theorem mapMembers_beaconTimer (f : StationId → Member → Member) (m : Mbu) :
    (m.mapMembers f).beaconTimer = m.beaconTimer := rfl

@[simp] theorem mapMembers_wonMark (f : StationId → Member → Member) (m : Mbu) :
    (m.mapMembers f).wonMark = m.wonMark := rfl

@[simp] theorem slot_mapSlots (f : SlotRecord → SlotRecord) (q : Rqt) (n : SlotId) :
    (q.mapSlots f).slot n = f (q.slot n) := by
  simp [Rqt.mapSlots, Rqt.slot, get_eq_getElem]

/-! ### Htu.entered -/

@[simp] theorem entered_holders (a : BitVec 16) (k : Option Nat) (u : Htu) :
    (u.entered a k).holders = [] := rfl
@[simp] theorem entered_waiters (a : BitVec 16) (k : Option Nat) (u : Htu) :
    (u.entered a k).waiters = [] := rfl
@[simp] theorem entered_backlog (a : BitVec 16) (k : Option Nat) (u : Htu) :
    (u.entered a k).backlog = [] := rfl
@[simp] theorem entered_posted (a : BitVec 16) (k : Option Nat) (u : Htu) :
    (u.entered a k).posted = u.posted := rfl
@[simp] theorem entered_stalled (a : BitVec 16) (k : Option Nat) (u : Htu) :
    (u.entered a k).stalled = [] := rfl
@[simp] theorem entered_purge (a : BitVec 16) (k : Option Nat) (u : Htu) :
    (u.entered a k).purge = u.purge := rfl
@[simp] theorem entered_engaged (a : BitVec 16) (k : Option Nat) (u : Htu) :
    (u.entered a k).engaged = u.engaged := rfl
@[simp] theorem entered_claims (a : BitVec 16) (k : Option Nat) (u : Htu) :
    (u.entered a k).claims = u.claims := rfl
@[simp] theorem entered_arriving (a : BitVec 16) (k : Option Nat) (u : Htu) :
    (u.entered a k).arriving = u.arriving := rfl
@[simp] theorem entered_decision (a : BitVec 16) (k : Option Nat) (u : Htu) :
    (u.entered a k).decision = u.decision := rfl
@[simp] theorem entered_awaited (a : BitVec 16) (k : Option Nat) (u : Htu) :
    (u.entered a k).awaited = a := rfl
@[simp] theorem entered_rebuildTimer (a : BitVec 16) (k : Option Nat) (u : Htu) :
    (u.entered a k).rebuildTimer = k := rfl

/-! ### A command that acts -/

/-- A command that acts answers a next state with the queue as it was. -/
@[simp] theorem acts_eq (f : Hw → Hw) (s : State) : acts f s = .next { s with hw := f s.hw } := rfl

theorem atPort_released {f : Hw → Hw} (hp : h.port.porAsserted = false) : atPort f h = f h := by
  simp [atPort, hp]

theorem atPort_held {f : Hw → Hw} (hp : h.port.porAsserted = true) : atPort f h = h := by
  simp [atPort, hp]

end Sys2Proof.Machine
end

