-- ==== Sys2Proof/Laws/Frames.lean ====
section
/-! SUPPORT. What the shared operations leave alone, one lemma per field, and what they do to the fields they
write. -/

namespace Sys2Proof.Machine

variable (h : Hw)

/-! ### Completion queue -/

@[simp] theorem markRoute_queue (cfg : Scu) (r : Route) (c : Cqu) : (c.markRoute cfg r).queue = c.queue := by
  unfold Cqu.markRoute; split <;> [rfl; (split <;> rfl)]

@[simp] theorem markRoute_notices (cfg : Scu) (r : Route) (c : Cqu) :
    (c.markRoute cfg r).notices = c.notices := by
  unfold Cqu.markRoute; split <;> [rfl; (split <;> rfl)]

@[simp] theorem markRoute_events (cfg : Scu) (r : Route) (c : Cqu) :
    (c.markRoute cfg r).events = c.events := by
  unfold Cqu.markRoute; split <;> [rfl; (split <;> rfl)]

@[simp] theorem append_queue (cfg : Scu) (e : QueueEntry) (c : Cqu) :
    (c.append cfg e).queue = c.queue ++ [e] := by simp [Cqu.append]

@[simp] theorem append_notices (cfg : Scu) (e : QueueEntry) (c : Cqu) :
    (c.append cfg e).notices = c.notices := by simp [Cqu.append]

@[simp] theorem append_events (cfg : Scu) (e : QueueEntry) (c : Cqu) :
    (c.append cfg e).events = c.events := by simp [Cqu.append]

/-- The route the queue uses is the one R106 gives. -/
theorem routeOf_eq (c : Scu) (e : QueueEntry) : routeOf c e = routedTo c e := by cases e <;> rfl

/-- What an append does to a line: it marks the PULSE line the entry is routed to, and no other (R108). -/
theorem appendEntry_line (e : QueueEntry) (k : LineId) :
    (appendEntry e h).cqu.lines.get k =
      if routedTo h.scu e = .line k ∧ h.scu.lineModes.get k = .pulse then (h.cqu.lines.get k).mark
      else h.cqu.lines.get k := by
  rw [← routeOf_eq]
  simp only [appendEntry, Cqu.append, Cqu.markRoute]
  split
  · next hr => simp [hr]
  · next n hr =>
    split
    · next hm =>
      by_cases hk : n = k
      · subst hk; simp [hm]
      · simp [hr, hk]
    · next hm =>
      by_cases hk : n = k
      · subst hk
        simp only [hr, hm, and_self, if_true, Cqu.setLine]
        simp only [get_eq_getElem, Vector.getElem_set_self]
      · have hv : n.val ≠ k.val := fun hc => hk (Fin.ext hc)
        simp only [hr, Route.line.injEq, hk, false_and, if_false, Cqu.setLine]
        simp only [get_eq_getElem, Vector.getElem_set_ne _ _ hv]

@[simp] theorem appendEntry_queue (e : QueueEntry) :
    (appendEntry e h).cqu.queue = h.cqu.queue ++ [e] := by simp [appendEntry]

@[simp] theorem appendEntry_notices (e : QueueEntry) :
    (appendEntry e h).cqu.notices = h.cqu.notices := by simp [appendEntry]

@[simp] theorem appendEntry_events (e : QueueEntry) :
    (appendEntry e h).cqu.events = h.cqu.events := by simp [appendEntry]

/-- A line's count of pulses owed never passes its ceiling (R108). -/
theorem mark_owed_le (l : Line) : l.mark.owed ≤ 255 := Nat.min_le_right _ _

@[simp] theorem appendEntry_scu (e : QueueEntry) : (appendEntry e h).scu = h.scu := by
  rfl
@[simp] theorem appendEntry_lbc (e : QueueEntry) : (appendEntry e h).lbc = h.lbc := by
  rfl
@[simp] theorem appendEntry_htu (e : QueueEntry) : (appendEntry e h).htu = h.htu := by
  rfl
@[simp] theorem appendEntry_rqt (e : QueueEntry) : (appendEntry e h).rqt = h.rqt := by
  rfl
@[simp] theorem appendEntry_mbu (e : QueueEntry) : (appendEntry e h).mbu = h.mbu := by
  rfl
@[simp] theorem appendEntry_port (e : QueueEntry) : (appendEntry e h).port = h.port := by
  rfl

@[simp] theorem requestNotice_scu (n : SlotId) : (requestNotice n h).scu = h.scu := by
  unfold requestNotice; split <;> rfl
@[simp] theorem requestNotice_lbc (n : SlotId) : (requestNotice n h).lbc = h.lbc := by
  unfold requestNotice; split <;> rfl
@[simp] theorem requestNotice_htu (n : SlotId) : (requestNotice n h).htu = h.htu := by
  unfold requestNotice; split <;> rfl
@[simp] theorem requestNotice_rqt (n : SlotId) : (requestNotice n h).rqt = h.rqt := by
  unfold requestNotice; split <;> rfl
@[simp] theorem requestNotice_mbu (n : SlotId) : (requestNotice n h).mbu = h.mbu := by
  unfold requestNotice; split <;> rfl
@[simp] theorem requestNotice_port (n : SlotId) : (requestNotice n h).port = h.port := by
  unfold requestNotice; split <;> rfl

@[simp] theorem raiseEvent_scu (ev : Event) : (raiseEvent ev h).scu = h.scu := by
  unfold raiseEvent; dsimp only; split <;> rfl
@[simp] theorem raiseEvent_lbc (ev : Event) : (raiseEvent ev h).lbc = h.lbc := by
  unfold raiseEvent; dsimp only; split <;> rfl
@[simp] theorem raiseEvent_htu (ev : Event) : (raiseEvent ev h).htu = h.htu := by
  unfold raiseEvent; dsimp only; split <;> rfl
@[simp] theorem raiseEvent_rqt (ev : Event) : (raiseEvent ev h).rqt = h.rqt := by
  unfold raiseEvent; dsimp only; split <;> rfl
@[simp] theorem raiseEvent_mbu (ev : Event) : (raiseEvent ev h).mbu = h.mbu := by
  unfold raiseEvent; dsimp only; split <;> rfl
@[simp] theorem raiseEvent_port (ev : Event) : (raiseEvent ev h).port = h.port := by
  unfold raiseEvent; dsimp only; split <;> rfl

@[simp] theorem raiseEvent_events (ev : Event) :
    (raiseEvent ev h).cqu.events = h.cqu.events.raise ev := by
  unfold raiseEvent; dsimp only; split <;> simp

@[simp] theorem raiseEvent_notices (ev : Event) : (raiseEvent ev h).cqu.notices = h.cqu.notices := by
  unfold raiseEvent; dsimp only; split <;> simp

theorem raiseEvent_queue (ev : Event) :
    (raiseEvent ev h).cqu.queue =
      if h.cqu.events = .empty then h.cqu.queue ++ [.station] else h.cqu.queue := by
  unfold raiseEvent; dsimp only; split <;> simp

/-- A raise never leaves the event set empty (R102). -/
theorem raise_ne_empty (ev : Event) (s : EventSet) : s.raise ev ≠ .empty := by
  cases ev <;> simp [EventSet.raise, EventSet.empty]

/-! ### The reassert walker -/

@[simp] theorem walkerPlaceOne_scu : (walkerPlaceOne h).scu = h.scu := by
  unfold walkerPlaceOne
  split <;> [(split <;> [(split <;> rfl); rfl]); rfl]
@[simp] theorem walkerPlaceOne_htu : (walkerPlaceOne h).htu = h.htu := by
  unfold walkerPlaceOne
  split <;> [(split <;> [(split <;> rfl); rfl]); rfl]
@[simp] theorem walkerPlaceOne_mbu : (walkerPlaceOne h).mbu = h.mbu := by
  unfold walkerPlaceOne
  split <;> [(split <;> [(split <;> rfl); rfl]); rfl]
@[simp] theorem walkerPlaceOne_cqu : (walkerPlaceOne h).cqu = h.cqu := by
  unfold walkerPlaceOne
  split <;> [(split <;> [(split <;> rfl); rfl]); rfl]
@[simp] theorem walkerPlaceOne_port : (walkerPlaceOne h).port = h.port := by
  unfold walkerPlaceOne
  split <;> [(split <;> [(split <;> rfl); rfl]); rfl]
@[simp] theorem walkerPlaceOne_rqt_slots : (walkerPlaceOne h).rqt.slots = h.rqt.slots := by
  unfold walkerPlaceOne
  split <;> [(split <;> [(split <;> rfl); rfl]); rfl]
@[simp] theorem walkerPlaceOne_rqt_answer : (walkerPlaceOne h).rqt.answer = h.rqt.answer := by
  unfold walkerPlaceOne
  split <;> [(split <;> [(split <;> rfl); rfl]); rfl]
@[simp] theorem walkerPlaceOne_rqt_waitLimits : (walkerPlaceOne h).rqt.waitLimits = h.rqt.waitLimits := by
  unfold walkerPlaceOne
  split <;> [(split <;> [(split <;> rfl); rfl]); rfl]
@[simp] theorem walkerPlaceOne_rqt_homes : (walkerPlaceOne h).rqt.homes = h.rqt.homes := by
  unfold walkerPlaceOne
  split <;> [(split <;> [(split <;> rfl); rfl]); rfl]
@[simp] theorem walkerPlaceOne_rqt_responses : (walkerPlaceOne h).rqt.responses = h.rqt.responses := by
  unfold walkerPlaceOne
  split <;> [(split <;> [(split <;> rfl); rfl]); rfl]
@[simp] theorem walkerPlaceOne_lbc_normal : (walkerPlaceOne h).lbc.normal = h.lbc.normal := by
  unfold walkerPlaceOne
  split <;> [(split <;> [(split <;> rfl); rfl]); rfl]
@[simp] theorem walkerPlaceOne_lbc_pointer : (walkerPlaceOne h).lbc.pointer = h.lbc.pointer := by
  unfold walkerPlaceOne
  split <;> [(split <;> [(split <;> rfl); rfl]); rfl]
@[simp] theorem walkerPlaceOne_lbc_record : (walkerPlaceOne h).lbc.record = h.lbc.record := by
  unfold walkerPlaceOne
  split <;> [(split <;> [(split <;> rfl); rfl]); rfl]

@[simp] theorem walkerAct_scu : (walkerAct h).scu = h.scu := by
  simp [walkerAct]
@[simp] theorem walkerAct_htu : (walkerAct h).htu = h.htu := by
  simp [walkerAct]
@[simp] theorem walkerAct_mbu : (walkerAct h).mbu = h.mbu := by
  simp [walkerAct]
@[simp] theorem walkerAct_cqu : (walkerAct h).cqu = h.cqu := by
  simp [walkerAct]
@[simp] theorem walkerAct_port : (walkerAct h).port = h.port := by
  simp [walkerAct]
@[simp] theorem walkerAct_rqt_slots : (walkerAct h).rqt.slots = h.rqt.slots := by
  simp [walkerAct]
@[simp] theorem walkerAct_rqt_answer : (walkerAct h).rqt.answer = h.rqt.answer := by
  simp [walkerAct]
@[simp] theorem walkerAct_rqt_waitLimits : (walkerAct h).rqt.waitLimits = h.rqt.waitLimits := by
  simp [walkerAct]
@[simp] theorem walkerAct_rqt_homes : (walkerAct h).rqt.homes = h.rqt.homes := by
  simp [walkerAct]
@[simp] theorem walkerAct_rqt_responses : (walkerAct h).rqt.responses = h.rqt.responses := by
  simp [walkerAct]
@[simp] theorem walkerAct_lbc_normal : (walkerAct h).lbc.normal = h.lbc.normal := by
  simp [walkerAct]
@[simp] theorem walkerAct_lbc_pointer : (walkerAct h).lbc.pointer = h.lbc.pointer := by
  simp [walkerAct]
@[simp] theorem walkerAct_lbc_record : (walkerAct h).lbc.record = h.lbc.record := by
  simp [walkerAct]

/-- One REASSERT placed keeps the count within its limit (R141). -/
theorem walkerPlaceOne_outstanding_le (hl : h.rqt.outstanding ≤ 4) :
    (walkerPlaceOne h).rqt.outstanding ≤ 4 := by
  unfold walkerPlaceOne
  split
  · split
    · rename_i hc
      have := hc.2.2
      split <;> (simp [placePriority, Config.outstandingLimit] at *; omega)
    · exact hl
  · exact hl

theorem walkerAct_outstanding_le (hl : h.rqt.outstanding ≤ 4) : (walkerAct h).rqt.outstanding ≤ 4 :=
  walkerPlaceOne_outstanding_le _ (walkerPlaceOne_outstanding_le _
    (walkerPlaceOne_outstanding_le _ (walkerPlaceOne_outstanding_le _ hl)))

/-- A walk without a phase places nothing (R141). -/
theorem walkerAct_absent (hp : h.rqt.phase = none) : walkerAct h = h := by
  have one : walkerPlaceOne h = h := by
    unfold walkerPlaceOne
    rw [hp]
    split
    · rename_i he
      exact absurd he (by simp)
    · rfl
  simp [walkerAct, one]

/-! ### Ending and issuing an operation -/

@[simp] theorem endOperation_scu (n : SlotId) (c : ResultCode) (d : ResultDetail) (m : Option Mode) : (endOperation n c d m h).scu = h.scu := by
  unfold endOperation; split <;> [rfl; simp]
@[simp] theorem endOperation_lbc (n : SlotId) (c : ResultCode) (d : ResultDetail) (m : Option Mode) : (endOperation n c d m h).lbc = h.lbc := by
  unfold endOperation; split <;> [rfl; simp]
@[simp] theorem endOperation_htu (n : SlotId) (c : ResultCode) (d : ResultDetail) (m : Option Mode) : (endOperation n c d m h).htu = h.htu := by
  unfold endOperation; split <;> [rfl; simp]
@[simp] theorem endOperation_mbu (n : SlotId) (c : ResultCode) (d : ResultDetail) (m : Option Mode) : (endOperation n c d m h).mbu = h.mbu := by
  unfold endOperation; split <;> [rfl; simp]
@[simp] theorem endOperation_port (n : SlotId) (c : ResultCode) (d : ResultDetail) (m : Option Mode) : (endOperation n c d m h).port = h.port := by
  unfold endOperation; split <;> [rfl; simp]
@[simp] theorem endOperation_rqt_answer (n : SlotId) (c : ResultCode) (d : ResultDetail) (m : Option Mode) : (endOperation n c d m h).rqt.answer = h.rqt.answer := by
  unfold endOperation; split <;> [rfl; simp]
@[simp] theorem endOperation_rqt_waitLimits (n : SlotId) (c : ResultCode) (d : ResultDetail) (m : Option Mode) : (endOperation n c d m h).rqt.waitLimits = h.rqt.waitLimits := by
  unfold endOperation; split <;> [rfl; simp]
@[simp] theorem endOperation_rqt_homes (n : SlotId) (c : ResultCode) (d : ResultDetail) (m : Option Mode) : (endOperation n c d m h).rqt.homes = h.rqt.homes := by
  unfold endOperation; split <;> [rfl; simp]
@[simp] theorem endOperation_rqt_phase (n : SlotId) (c : ResultCode) (d : ResultDetail) (m : Option Mode) : (endOperation n c d m h).rqt.phase = h.rqt.phase := by
  unfold endOperation; split <;> [rfl; simp]
@[simp] theorem endOperation_rqt_outstanding (n : SlotId) (c : ResultCode) (d : ResultDetail) (m : Option Mode) : (endOperation n c d m h).rqt.outstanding = h.rqt.outstanding := by
  unfold endOperation; split <;> [rfl; simp]
@[simp] theorem endOperation_rqt_responses (n : SlotId) (c : ResultCode) (d : ResultDetail) (m : Option Mode) : (endOperation n c d m h).rqt.responses = h.rqt.responses := by
  unfold endOperation; split <;> [rfl; simp]
@[simp] theorem endOperation_cqu_notices (n : SlotId) (c : ResultCode) (d : ResultDetail) (m : Option Mode) : (endOperation n c d m h).cqu.notices = h.cqu.notices := by
  unfold endOperation; split <;> [rfl; simp]
@[simp] theorem endOperation_cqu_events (n : SlotId) (c : ResultCode) (d : ResultDetail) (m : Option Mode) : (endOperation n c d m h).cqu.events = h.cqu.events := by
  unfold endOperation; split <;> [rfl; simp]

@[simp] theorem endAcquire_scu (n : SlotId) (c : ResultCode) (d : ResultDetail) : (endAcquire n c d h).scu = h.scu := by
  simp [endAcquire]
@[simp] theorem endAcquire_lbc (n : SlotId) (c : ResultCode) (d : ResultDetail) : (endAcquire n c d h).lbc = h.lbc := by
  simp [endAcquire]
@[simp] theorem endAcquire_htu (n : SlotId) (c : ResultCode) (d : ResultDetail) : (endAcquire n c d h).htu = h.htu := by
  simp [endAcquire]
@[simp] theorem endAcquire_mbu (n : SlotId) (c : ResultCode) (d : ResultDetail) : (endAcquire n c d h).mbu = h.mbu := by
  simp [endAcquire]
@[simp] theorem endAcquire_port (n : SlotId) (c : ResultCode) (d : ResultDetail) : (endAcquire n c d h).port = h.port := by
  simp [endAcquire]
@[simp] theorem endAcquire_rqt_answer (n : SlotId) (c : ResultCode) (d : ResultDetail) : (endAcquire n c d h).rqt.answer = h.rqt.answer := by
  simp [endAcquire]
@[simp] theorem endAcquire_rqt_waitLimits (n : SlotId) (c : ResultCode) (d : ResultDetail) : (endAcquire n c d h).rqt.waitLimits = h.rqt.waitLimits := by
  simp [endAcquire]
@[simp] theorem endAcquire_rqt_homes (n : SlotId) (c : ResultCode) (d : ResultDetail) : (endAcquire n c d h).rqt.homes = h.rqt.homes := by
  simp [endAcquire]
@[simp] theorem endAcquire_rqt_phase (n : SlotId) (c : ResultCode) (d : ResultDetail) : (endAcquire n c d h).rqt.phase = h.rqt.phase := by
  simp [endAcquire]
@[simp] theorem endAcquire_rqt_outstanding (n : SlotId) (c : ResultCode) (d : ResultDetail) : (endAcquire n c d h).rqt.outstanding = h.rqt.outstanding := by
  simp [endAcquire]
@[simp] theorem endAcquire_rqt_responses (n : SlotId) (c : ResultCode) (d : ResultDetail) : (endAcquire n c d h).rqt.responses = h.rqt.responses := by
  simp [endAcquire]
@[simp] theorem endAcquire_cqu_notices (n : SlotId) (c : ResultCode) (d : ResultDetail) : (endAcquire n c d h).cqu.notices = h.cqu.notices := by
  simp [endAcquire]
@[simp] theorem endAcquire_cqu_events (n : SlotId) (c : ResultCode) (d : ResultDetail) : (endAcquire n c d h).cqu.events = h.cqu.events := by
  simp [endAcquire]

@[simp] theorem endCancelled_scu (n : SlotId) (c : CancelCause) : (endCancelled n c h).scu = h.scu := by
  simp [endCancelled]
@[simp] theorem endCancelled_lbc (n : SlotId) (c : CancelCause) : (endCancelled n c h).lbc = h.lbc := by
  simp [endCancelled]
@[simp] theorem endCancelled_htu (n : SlotId) (c : CancelCause) : (endCancelled n c h).htu = h.htu := by
  simp [endCancelled]
@[simp] theorem endCancelled_mbu (n : SlotId) (c : CancelCause) : (endCancelled n c h).mbu = h.mbu := by
  simp [endCancelled]
@[simp] theorem endCancelled_port (n : SlotId) (c : CancelCause) : (endCancelled n c h).port = h.port := by
  simp [endCancelled]
@[simp] theorem endCancelled_rqt_answer (n : SlotId) (c : CancelCause) : (endCancelled n c h).rqt.answer = h.rqt.answer := by
  simp [endCancelled]
@[simp] theorem endCancelled_rqt_waitLimits (n : SlotId) (c : CancelCause) : (endCancelled n c h).rqt.waitLimits = h.rqt.waitLimits := by
  simp [endCancelled]
@[simp] theorem endCancelled_rqt_homes (n : SlotId) (c : CancelCause) : (endCancelled n c h).rqt.homes = h.rqt.homes := by
  simp [endCancelled]
@[simp] theorem endCancelled_rqt_phase (n : SlotId) (c : CancelCause) : (endCancelled n c h).rqt.phase = h.rqt.phase := by
  simp [endCancelled]
@[simp] theorem endCancelled_rqt_outstanding (n : SlotId) (c : CancelCause) : (endCancelled n c h).rqt.outstanding = h.rqt.outstanding := by
  simp [endCancelled]
@[simp] theorem endCancelled_rqt_responses (n : SlotId) (c : CancelCause) : (endCancelled n c h).rqt.responses = h.rqt.responses := by
  simp [endCancelled]
@[simp] theorem endCancelled_cqu_notices (n : SlotId) (c : CancelCause) : (endCancelled n c h).cqu.notices = h.cqu.notices := by
  simp [endCancelled]
@[simp] theorem endCancelled_cqu_events (n : SlotId) (c : CancelCause) : (endCancelled n c h).cqu.events = h.cqu.events := by
  simp [endCancelled]

@[simp] theorem endRecordedCancel_scu (n : SlotId) : (endRecordedCancel n h).scu = h.scu := by
  simp [endRecordedCancel]
@[simp] theorem endRecordedCancel_lbc (n : SlotId) : (endRecordedCancel n h).lbc = h.lbc := by
  simp [endRecordedCancel]
@[simp] theorem endRecordedCancel_htu (n : SlotId) : (endRecordedCancel n h).htu = h.htu := by
  simp [endRecordedCancel]
@[simp] theorem endRecordedCancel_mbu (n : SlotId) : (endRecordedCancel n h).mbu = h.mbu := by
  simp [endRecordedCancel]
@[simp] theorem endRecordedCancel_port (n : SlotId) : (endRecordedCancel n h).port = h.port := by
  simp [endRecordedCancel]
@[simp] theorem endRecordedCancel_rqt_answer (n : SlotId) : (endRecordedCancel n h).rqt.answer = h.rqt.answer := by
  simp [endRecordedCancel]
@[simp] theorem endRecordedCancel_rqt_waitLimits (n : SlotId) : (endRecordedCancel n h).rqt.waitLimits = h.rqt.waitLimits := by
  simp [endRecordedCancel]
@[simp] theorem endRecordedCancel_rqt_homes (n : SlotId) : (endRecordedCancel n h).rqt.homes = h.rqt.homes := by
  simp [endRecordedCancel]
@[simp] theorem endRecordedCancel_rqt_phase (n : SlotId) : (endRecordedCancel n h).rqt.phase = h.rqt.phase := by
  simp [endRecordedCancel]
@[simp] theorem endRecordedCancel_rqt_outstanding (n : SlotId) : (endRecordedCancel n h).rqt.outstanding = h.rqt.outstanding := by
  simp [endRecordedCancel]
@[simp] theorem endRecordedCancel_rqt_responses (n : SlotId) : (endRecordedCancel n h).rqt.responses = h.rqt.responses := by
  simp [endRecordedCancel]
@[simp] theorem endRecordedCancel_cqu_notices (n : SlotId) : (endRecordedCancel n h).cqu.notices = h.cqu.notices := by
  simp [endRecordedCancel]
@[simp] theorem endRecordedCancel_cqu_events (n : SlotId) : (endRecordedCancel n h).cqu.events = h.cqu.events := by
  simp [endRecordedCancel]

@[simp] theorem issueOperation_scu (n : SlotId) : (issueOperation n h).scu = h.scu := by
  unfold issueOperation; split <;> [rfl; (split <;> rfl)]
@[simp] theorem issueOperation_mbu (n : SlotId) : (issueOperation n h).mbu = h.mbu := by
  unfold issueOperation; split <;> [rfl; (split <;> rfl)]
@[simp] theorem issueOperation_cqu (n : SlotId) : (issueOperation n h).cqu = h.cqu := by
  unfold issueOperation; split <;> [rfl; (split <;> rfl)]
@[simp] theorem issueOperation_port (n : SlotId) : (issueOperation n h).port = h.port := by
  unfold issueOperation; split <;> [rfl; (split <;> rfl)]
@[simp] theorem issueOperation_rqt_holds (n : SlotId) : (issueOperation n h).rqt.holds = h.rqt.holds := by
  unfold issueOperation; split <;> [rfl; (split <;> rfl)]
@[simp] theorem issueOperation_rqt_answer (n : SlotId) : (issueOperation n h).rqt.answer = h.rqt.answer := by
  unfold issueOperation; split <;> [rfl; (split <;> rfl)]
@[simp] theorem issueOperation_rqt_waitLimits (n : SlotId) : (issueOperation n h).rqt.waitLimits = h.rqt.waitLimits := by
  unfold issueOperation; split <;> [rfl; (split <;> rfl)]
@[simp] theorem issueOperation_rqt_homes (n : SlotId) : (issueOperation n h).rqt.homes = h.rqt.homes := by
  unfold issueOperation; split <;> [rfl; (split <;> rfl)]
@[simp] theorem issueOperation_rqt_phase (n : SlotId) : (issueOperation n h).rqt.phase = h.rqt.phase := by
  unfold issueOperation; split <;> [rfl; (split <;> rfl)]
@[simp] theorem issueOperation_rqt_outstanding (n : SlotId) : (issueOperation n h).rqt.outstanding = h.rqt.outstanding := by
  unfold issueOperation; split <;> [rfl; (split <;> rfl)]
@[simp] theorem issueOperation_rqt_responses (n : SlotId) : (issueOperation n h).rqt.responses = h.rqt.responses := by
  unfold issueOperation; split <;> [rfl; (split <;> rfl)]
@[simp] theorem issueOperation_lbc_priority (n : SlotId) : (issueOperation n h).lbc.priority = h.lbc.priority := by
  unfold issueOperation; split <;> [rfl; (split <;> rfl)]
@[simp] theorem issueOperation_lbc_record (n : SlotId) : (issueOperation n h).lbc.record = h.lbc.record := by
  unfold issueOperation; split <;> [rfl; (split <;> rfl)]
@[simp] theorem issueOperation_lbc_pointer (n : SlotId) : (issueOperation n h).lbc.pointer = h.lbc.pointer := by
  unfold issueOperation; split <;> [rfl; (split <;> rfl)]
@[simp] theorem issueOperation_htu_holders (n : SlotId) : (issueOperation n h).htu.holders = h.htu.holders := by
  unfold issueOperation; split <;> [rfl; (split <;> first | rfl | simp)]
@[simp] theorem issueOperation_htu_waiters (n : SlotId) : (issueOperation n h).htu.waiters = h.htu.waiters := by
  unfold issueOperation; split <;> [rfl; (split <;> first | rfl | simp)]
@[simp] theorem issueOperation_htu_backlog (n : SlotId) : (issueOperation n h).htu.backlog = h.htu.backlog := by
  unfold issueOperation; split <;> [rfl; (split <;> first | rfl | simp)]
@[simp] theorem issueOperation_htu_posted (n : SlotId) : (issueOperation n h).htu.posted = h.htu.posted := by
  unfold issueOperation; split <;> [rfl; (split <;> first | rfl | simp)]
@[simp] theorem issueOperation_htu_stalled (n : SlotId) : (issueOperation n h).htu.stalled = h.htu.stalled := by
  unfold issueOperation; split <;> [rfl; (split <;> first | rfl | simp)]
@[simp] theorem issueOperation_htu_purge (n : SlotId) : (issueOperation n h).htu.purge = h.htu.purge := by
  unfold issueOperation; split <;> [rfl; (split <;> first | rfl | simp)]
@[simp] theorem issueOperation_htu_engaged (n : SlotId) : (issueOperation n h).htu.engaged = h.htu.engaged := by
  unfold issueOperation; split <;> [rfl; (split <;> first | rfl | simp)]
@[simp] theorem issueOperation_htu_decision (n : SlotId) : (issueOperation n h).htu.decision = h.htu.decision := by
  unfold issueOperation; split <;> [rfl; (split <;> first | rfl | simp)]
@[simp] theorem issueOperation_htu_awaited (n : SlotId) : (issueOperation n h).htu.awaited = h.htu.awaited := by
  unfold issueOperation; split <;> [rfl; (split <;> first | rfl | simp)]
@[simp] theorem issueOperation_htu_rebuildTimer (n : SlotId) : (issueOperation n h).htu.rebuildTimer = h.htu.rebuildTimer := by
  unfold issueOperation; split <;> [rfl; (split <;> first | rfl | simp)]

@[simp] theorem issueCancel_scu (n : SlotId) (c : CancelCause) : (issueCancel n c h).scu = h.scu := by
  unfold issueCancel; split <;> [rfl; (dsimp only; split <;> rfl)]
@[simp] theorem issueCancel_mbu (n : SlotId) (c : CancelCause) : (issueCancel n c h).mbu = h.mbu := by
  unfold issueCancel; split <;> [rfl; (dsimp only; split <;> rfl)]
@[simp] theorem issueCancel_cqu (n : SlotId) (c : CancelCause) : (issueCancel n c h).cqu = h.cqu := by
  unfold issueCancel; split <;> [rfl; (dsimp only; split <;> rfl)]
@[simp] theorem issueCancel_port (n : SlotId) (c : CancelCause) : (issueCancel n c h).port = h.port := by
  unfold issueCancel; split <;> [rfl; (dsimp only; split <;> rfl)]
@[simp] theorem issueCancel_rqt_holds (n : SlotId) (c : CancelCause) : (issueCancel n c h).rqt.holds = h.rqt.holds := by
  unfold issueCancel; split <;> [rfl; (dsimp only; split <;> rfl)]
@[simp] theorem issueCancel_rqt_answer (n : SlotId) (c : CancelCause) : (issueCancel n c h).rqt.answer = h.rqt.answer := by
  unfold issueCancel; split <;> [rfl; (dsimp only; split <;> rfl)]
@[simp] theorem issueCancel_rqt_waitLimits (n : SlotId) (c : CancelCause) : (issueCancel n c h).rqt.waitLimits = h.rqt.waitLimits := by
  unfold issueCancel; split <;> [rfl; (dsimp only; split <;> rfl)]
@[simp] theorem issueCancel_rqt_homes (n : SlotId) (c : CancelCause) : (issueCancel n c h).rqt.homes = h.rqt.homes := by
  unfold issueCancel; split <;> [rfl; (dsimp only; split <;> rfl)]
@[simp] theorem issueCancel_rqt_phase (n : SlotId) (c : CancelCause) : (issueCancel n c h).rqt.phase = h.rqt.phase := by
  unfold issueCancel; split <;> [rfl; (dsimp only; split <;> rfl)]
@[simp] theorem issueCancel_rqt_outstanding (n : SlotId) (c : CancelCause) : (issueCancel n c h).rqt.outstanding = h.rqt.outstanding := by
  unfold issueCancel; split <;> [rfl; (dsimp only; split <;> rfl)]
@[simp] theorem issueCancel_rqt_responses (n : SlotId) (c : CancelCause) : (issueCancel n c h).rqt.responses = h.rqt.responses := by
  unfold issueCancel; split <;> [rfl; (dsimp only; split <;> rfl)]
@[simp] theorem issueCancel_lbc_priority (n : SlotId) (c : CancelCause) : (issueCancel n c h).lbc.priority = h.lbc.priority := by
  unfold issueCancel; split <;> [rfl; (dsimp only; split <;> rfl)]
@[simp] theorem issueCancel_lbc_record (n : SlotId) (c : CancelCause) : (issueCancel n c h).lbc.record = h.lbc.record := by
  unfold issueCancel; split <;> [rfl; (dsimp only; split <;> rfl)]
@[simp] theorem issueCancel_lbc_pointer (n : SlotId) (c : CancelCause) : (issueCancel n c h).lbc.pointer = h.lbc.pointer := by
  unfold issueCancel; split <;> [rfl; (dsimp only; split <;> rfl)]
@[simp] theorem issueCancel_htu_holders (n : SlotId) (c : CancelCause) : (issueCancel n c h).htu.holders = h.htu.holders := by
  unfold issueCancel; split <;> [rfl; (dsimp only; split <;> first | rfl | simp)]
@[simp] theorem issueCancel_htu_waiters (n : SlotId) (c : CancelCause) : (issueCancel n c h).htu.waiters = h.htu.waiters := by
  unfold issueCancel; split <;> [rfl; (dsimp only; split <;> first | rfl | simp)]
@[simp] theorem issueCancel_htu_backlog (n : SlotId) (c : CancelCause) : (issueCancel n c h).htu.backlog = h.htu.backlog := by
  unfold issueCancel; split <;> [rfl; (dsimp only; split <;> first | rfl | simp)]
@[simp] theorem issueCancel_htu_posted (n : SlotId) (c : CancelCause) : (issueCancel n c h).htu.posted = h.htu.posted := by
  unfold issueCancel; split <;> [rfl; (dsimp only; split <;> first | rfl | simp)]
@[simp] theorem issueCancel_htu_stalled (n : SlotId) (c : CancelCause) : (issueCancel n c h).htu.stalled = h.htu.stalled := by
  unfold issueCancel; split <;> [rfl; (dsimp only; split <;> first | rfl | simp)]
@[simp] theorem issueCancel_htu_purge (n : SlotId) (c : CancelCause) : (issueCancel n c h).htu.purge = h.htu.purge := by
  unfold issueCancel; split <;> [rfl; (dsimp only; split <;> first | rfl | simp)]
@[simp] theorem issueCancel_htu_engaged (n : SlotId) (c : CancelCause) : (issueCancel n c h).htu.engaged = h.htu.engaged := by
  unfold issueCancel; split <;> [rfl; (dsimp only; split <;> first | rfl | simp)]
@[simp] theorem issueCancel_htu_decision (n : SlotId) (c : CancelCause) : (issueCancel n c h).htu.decision = h.htu.decision := by
  unfold issueCancel; split <;> [rfl; (dsimp only; split <;> first | rfl | simp)]
@[simp] theorem issueCancel_htu_awaited (n : SlotId) (c : CancelCause) : (issueCancel n c h).htu.awaited = h.htu.awaited := by
  unfold issueCancel; split <;> [rfl; (dsimp only; split <;> first | rfl | simp)]
@[simp] theorem issueCancel_htu_rebuildTimer (n : SlotId) (c : CancelCause) : (issueCancel n c h).htu.rebuildTimer = h.htu.rebuildTimer := by
  unfold issueCancel; split <;> [rfl; (dsimp only; split <;> first | rfl | simp)]

@[simp] theorem dropOperationHold_scu (n : SlotId) : (dropOperationHold n h).scu = h.scu := by
  unfold dropOperationHold; split <;> rfl
@[simp] theorem dropOperationHold_lbc (n : SlotId) : (dropOperationHold n h).lbc = h.lbc := by
  unfold dropOperationHold; split <;> rfl
@[simp] theorem dropOperationHold_htu (n : SlotId) : (dropOperationHold n h).htu = h.htu := by
  unfold dropOperationHold; split <;> rfl
@[simp] theorem dropOperationHold_mbu (n : SlotId) : (dropOperationHold n h).mbu = h.mbu := by
  unfold dropOperationHold; split <;> rfl
@[simp] theorem dropOperationHold_cqu (n : SlotId) : (dropOperationHold n h).cqu = h.cqu := by
  unfold dropOperationHold; split <;> rfl
@[simp] theorem dropOperationHold_port (n : SlotId) : (dropOperationHold n h).port = h.port := by
  unfold dropOperationHold; split <;> rfl
@[simp] theorem dropOperationHold_rqt_slots (n : SlotId) : (dropOperationHold n h).rqt.slots = h.rqt.slots := by
  unfold dropOperationHold; split <;> rfl
@[simp] theorem dropOperationHold_rqt_answer (n : SlotId) : (dropOperationHold n h).rqt.answer = h.rqt.answer := by
  unfold dropOperationHold; split <;> rfl
@[simp] theorem dropOperationHold_rqt_waitLimits (n : SlotId) : (dropOperationHold n h).rqt.waitLimits = h.rqt.waitLimits := by
  unfold dropOperationHold; split <;> rfl
@[simp] theorem dropOperationHold_rqt_homes (n : SlotId) : (dropOperationHold n h).rqt.homes = h.rqt.homes := by
  unfold dropOperationHold; split <;> rfl
@[simp] theorem dropOperationHold_rqt_phase (n : SlotId) : (dropOperationHold n h).rqt.phase = h.rqt.phase := by
  unfold dropOperationHold; split <;> rfl
@[simp] theorem dropOperationHold_rqt_outstanding (n : SlotId) : (dropOperationHold n h).rqt.outstanding = h.rqt.outstanding := by
  unfold dropOperationHold; split <;> rfl
@[simp] theorem dropOperationHold_rqt_responses (n : SlotId) : (dropOperationHold n h).rqt.responses = h.rqt.responses := by
  unfold dropOperationHold; split <;> rfl

@[simp] theorem setOperationHold_scu (n : SlotId) (s : HoldState) (m : Mode) : (setOperationHold n s m h).scu = h.scu := by
  unfold setOperationHold; split <;> rfl
@[simp] theorem setOperationHold_lbc (n : SlotId) (s : HoldState) (m : Mode) : (setOperationHold n s m h).lbc = h.lbc := by
  unfold setOperationHold; split <;> rfl
@[simp] theorem setOperationHold_htu (n : SlotId) (s : HoldState) (m : Mode) : (setOperationHold n s m h).htu = h.htu := by
  unfold setOperationHold; split <;> rfl
@[simp] theorem setOperationHold_mbu (n : SlotId) (s : HoldState) (m : Mode) : (setOperationHold n s m h).mbu = h.mbu := by
  unfold setOperationHold; split <;> rfl
@[simp] theorem setOperationHold_cqu (n : SlotId) (s : HoldState) (m : Mode) : (setOperationHold n s m h).cqu = h.cqu := by
  unfold setOperationHold; split <;> rfl
@[simp] theorem setOperationHold_port (n : SlotId) (s : HoldState) (m : Mode) : (setOperationHold n s m h).port = h.port := by
  unfold setOperationHold; split <;> rfl
@[simp] theorem setOperationHold_rqt_slots (n : SlotId) (s : HoldState) (m : Mode) : (setOperationHold n s m h).rqt.slots = h.rqt.slots := by
  unfold setOperationHold; split <;> rfl
@[simp] theorem setOperationHold_rqt_answer (n : SlotId) (s : HoldState) (m : Mode) : (setOperationHold n s m h).rqt.answer = h.rqt.answer := by
  unfold setOperationHold; split <;> rfl
@[simp] theorem setOperationHold_rqt_waitLimits (n : SlotId) (s : HoldState) (m : Mode) : (setOperationHold n s m h).rqt.waitLimits = h.rqt.waitLimits := by
  unfold setOperationHold; split <;> rfl
@[simp] theorem setOperationHold_rqt_homes (n : SlotId) (s : HoldState) (m : Mode) : (setOperationHold n s m h).rqt.homes = h.rqt.homes := by
  unfold setOperationHold; split <;> rfl
@[simp] theorem setOperationHold_rqt_phase (n : SlotId) (s : HoldState) (m : Mode) : (setOperationHold n s m h).rqt.phase = h.rqt.phase := by
  unfold setOperationHold; split <;> rfl
@[simp] theorem setOperationHold_rqt_outstanding (n : SlotId) (s : HoldState) (m : Mode) : (setOperationHold n s m h).rqt.outstanding = h.rqt.outstanding := by
  unfold setOperationHold; split <;> rfl
@[simp] theorem setOperationHold_rqt_responses (n : SlotId) (s : HoldState) (m : Mode) : (setOperationHold n s m h).rqt.responses = h.rqt.responses := by
  unfold setOperationHold; split <;> rfl

/-! ### The home's offers -/

@[simp] theorem refillOne_scu : (refillOne h).scu = h.scu := by
  unfold refillOne; split <;> [rfl; (split <;> rfl)]
@[simp] theorem refillOne_rqt : (refillOne h).rqt = h.rqt := by
  unfold refillOne; split <;> [rfl; (split <;> rfl)]
@[simp] theorem refillOne_mbu : (refillOne h).mbu = h.mbu := by
  unfold refillOne; split <;> [rfl; (split <;> rfl)]
@[simp] theorem refillOne_cqu : (refillOne h).cqu = h.cqu := by
  unfold refillOne; split <;> [rfl; (split <;> rfl)]
@[simp] theorem refillOne_port : (refillOne h).port = h.port := by
  unfold refillOne; split <;> [rfl; (split <;> rfl)]
@[simp] theorem refillOne_lbc_normal : (refillOne h).lbc.normal = h.lbc.normal := by
  unfold refillOne; split <;> [rfl; (split <;> rfl)]
@[simp] theorem refillOne_lbc_record : (refillOne h).lbc.record = h.lbc.record := by
  unfold refillOne; split <;> [rfl; (split <;> rfl)]
@[simp] theorem refillOne_lbc_pointer : (refillOne h).lbc.pointer = h.lbc.pointer := by
  unfold refillOne; split <;> [rfl; (split <;> rfl)]
@[simp] theorem refillOne_htu_waiters : (refillOne h).htu.waiters = h.htu.waiters := by
  unfold refillOne; split <;> [rfl; (split <;> rfl)]
@[simp] theorem refillOne_htu_stalled : (refillOne h).htu.stalled = h.htu.stalled := by
  unfold refillOne; split <;> [rfl; (split <;> rfl)]
@[simp] theorem refillOne_htu_purge : (refillOne h).htu.purge = h.htu.purge := by
  unfold refillOne; split <;> [rfl; (split <;> rfl)]
@[simp] theorem refillOne_htu_engaged : (refillOne h).htu.engaged = h.htu.engaged := by
  unfold refillOne; split <;> [rfl; (split <;> rfl)]
@[simp] theorem refillOne_htu_claims : (refillOne h).htu.claims = h.htu.claims := by
  unfold refillOne; split <;> [rfl; (split <;> rfl)]
@[simp] theorem refillOne_htu_arriving : (refillOne h).htu.arriving = h.htu.arriving := by
  unfold refillOne; split <;> [rfl; (split <;> rfl)]
@[simp] theorem refillOne_htu_decision : (refillOne h).htu.decision = h.htu.decision := by
  unfold refillOne; split <;> [rfl; (split <;> rfl)]
@[simp] theorem refillOne_htu_awaited : (refillOne h).htu.awaited = h.htu.awaited := by
  unfold refillOne; split <;> [rfl; (split <;> rfl)]
@[simp] theorem refillOne_htu_rebuildTimer : (refillOne h).htu.rebuildTimer = h.htu.rebuildTimer := by
  unfold refillOne; split <;> [rfl; (split <;> rfl)]

@[simp] theorem refill_scu (k : Nat) : (refill k h).scu = h.scu := by
  induction k generalizing h with
  | zero => rfl
  | succ k ih => simp [refill, ih]
@[simp] theorem refill_rqt (k : Nat) : (refill k h).rqt = h.rqt := by
  induction k generalizing h with
  | zero => rfl
  | succ k ih => simp [refill, ih]
@[simp] theorem refill_mbu (k : Nat) : (refill k h).mbu = h.mbu := by
  induction k generalizing h with
  | zero => rfl
  | succ k ih => simp [refill, ih]
@[simp] theorem refill_cqu (k : Nat) : (refill k h).cqu = h.cqu := by
  induction k generalizing h with
  | zero => rfl
  | succ k ih => simp [refill, ih]
@[simp] theorem refill_port (k : Nat) : (refill k h).port = h.port := by
  induction k generalizing h with
  | zero => rfl
  | succ k ih => simp [refill, ih]
@[simp] theorem refill_lbc_normal (k : Nat) : (refill k h).lbc.normal = h.lbc.normal := by
  induction k generalizing h with
  | zero => rfl
  | succ k ih => simp [refill, ih]
@[simp] theorem refill_lbc_record (k : Nat) : (refill k h).lbc.record = h.lbc.record := by
  induction k generalizing h with
  | zero => rfl
  | succ k ih => simp [refill, ih]
@[simp] theorem refill_lbc_pointer (k : Nat) : (refill k h).lbc.pointer = h.lbc.pointer := by
  induction k generalizing h with
  | zero => rfl
  | succ k ih => simp [refill, ih]
@[simp] theorem refill_htu_waiters (k : Nat) : (refill k h).htu.waiters = h.htu.waiters := by
  induction k generalizing h with
  | zero => rfl
  | succ k ih => simp [refill, ih]
@[simp] theorem refill_htu_stalled (k : Nat) : (refill k h).htu.stalled = h.htu.stalled := by
  induction k generalizing h with
  | zero => rfl
  | succ k ih => simp [refill, ih]
@[simp] theorem refill_htu_purge (k : Nat) : (refill k h).htu.purge = h.htu.purge := by
  induction k generalizing h with
  | zero => rfl
  | succ k ih => simp [refill, ih]
@[simp] theorem refill_htu_engaged (k : Nat) : (refill k h).htu.engaged = h.htu.engaged := by
  induction k generalizing h with
  | zero => rfl
  | succ k ih => simp [refill, ih]
@[simp] theorem refill_htu_claims (k : Nat) : (refill k h).htu.claims = h.htu.claims := by
  induction k generalizing h with
  | zero => rfl
  | succ k ih => simp [refill, ih]
@[simp] theorem refill_htu_arriving (k : Nat) : (refill k h).htu.arriving = h.htu.arriving := by
  induction k generalizing h with
  | zero => rfl
  | succ k ih => simp [refill, ih]
@[simp] theorem refill_htu_decision (k : Nat) : (refill k h).htu.decision = h.htu.decision := by
  induction k generalizing h with
  | zero => rfl
  | succ k ih => simp [refill, ih]
@[simp] theorem refill_htu_awaited (k : Nat) : (refill k h).htu.awaited = h.htu.awaited := by
  induction k generalizing h with
  | zero => rfl
  | succ k ih => simp [refill, ih]
@[simp] theorem refill_htu_rebuildTimer (k : Nat) : (refill k h).htu.rebuildTimer = h.htu.rebuildTimer := by
  induction k generalizing h with
  | zero => rfl
  | succ k ih => simp [refill, ih]

@[simp] theorem departGrant_scu : (departGrant h).scu = h.scu := by
  unfold departGrant; dsimp only; split <;> simp
@[simp] theorem departGrant_rqt : (departGrant h).rqt = h.rqt := by
  unfold departGrant; dsimp only; split <;> simp
@[simp] theorem departGrant_mbu : (departGrant h).mbu = h.mbu := by
  unfold departGrant; dsimp only; split <;> simp
@[simp] theorem departGrant_cqu : (departGrant h).cqu = h.cqu := by
  unfold departGrant; dsimp only; split <;> simp
@[simp] theorem departGrant_port : (departGrant h).port = h.port := by
  unfold departGrant; dsimp only; split <;> simp
@[simp] theorem departGrant_lbc_normal : (departGrant h).lbc.normal = h.lbc.normal := by
  unfold departGrant; dsimp only; split <;> simp
@[simp] theorem departGrant_lbc_record : (departGrant h).lbc.record = h.lbc.record := by
  unfold departGrant; dsimp only; split <;> simp
@[simp] theorem departGrant_lbc_pointer : (departGrant h).lbc.pointer = h.lbc.pointer := by
  unfold departGrant; dsimp only; split <;> simp
@[simp] theorem departGrant_htu_waiters : (departGrant h).htu.waiters = h.htu.waiters := by
  unfold departGrant; dsimp only; split <;> simp
@[simp] theorem departGrant_htu_stalled : (departGrant h).htu.stalled = h.htu.stalled := by
  unfold departGrant; dsimp only; split <;> simp
@[simp] theorem departGrant_htu_purge : (departGrant h).htu.purge = h.htu.purge := by
  unfold departGrant; dsimp only; split <;> simp
@[simp] theorem departGrant_htu_engaged : (departGrant h).htu.engaged = h.htu.engaged := by
  unfold departGrant; dsimp only; split <;> simp
@[simp] theorem departGrant_htu_claims : (departGrant h).htu.claims = h.htu.claims := by
  unfold departGrant; dsimp only; split <;> simp
@[simp] theorem departGrant_htu_arriving : (departGrant h).htu.arriving = h.htu.arriving := by
  unfold departGrant; dsimp only; split <;> simp
@[simp] theorem departGrant_htu_decision : (departGrant h).htu.decision = h.htu.decision := by
  unfold departGrant; dsimp only; split <;> simp
@[simp] theorem departGrant_htu_awaited : (departGrant h).htu.awaited = h.htu.awaited := by
  unfold departGrant; dsimp only; split <;> simp
@[simp] theorem departGrant_htu_rebuildTimer : (departGrant h).htu.rebuildTimer = h.htu.rebuildTimer := by
  unfold departGrant; dsimp only; split <;> simp

@[simp] theorem withdrawOffer_scu (e : Holder) : (withdrawOffer e h).scu = h.scu := by
  unfold withdrawOffer; dsimp only; split <;> [(split <;> simp); rfl; rfl]
@[simp] theorem withdrawOffer_rqt (e : Holder) : (withdrawOffer e h).rqt = h.rqt := by
  unfold withdrawOffer; dsimp only; split <;> [(split <;> simp); rfl; rfl]
@[simp] theorem withdrawOffer_mbu (e : Holder) : (withdrawOffer e h).mbu = h.mbu := by
  unfold withdrawOffer; dsimp only; split <;> [(split <;> simp); rfl; rfl]
@[simp] theorem withdrawOffer_cqu (e : Holder) : (withdrawOffer e h).cqu = h.cqu := by
  unfold withdrawOffer; dsimp only; split <;> [(split <;> simp); rfl; rfl]
@[simp] theorem withdrawOffer_port (e : Holder) : (withdrawOffer e h).port = h.port := by
  unfold withdrawOffer; dsimp only; split <;> [(split <;> simp); rfl; rfl]
@[simp] theorem withdrawOffer_lbc_normal (e : Holder) : (withdrawOffer e h).lbc.normal = h.lbc.normal := by
  unfold withdrawOffer; dsimp only; split <;> [(split <;> simp); rfl; rfl]
@[simp] theorem withdrawOffer_lbc_record (e : Holder) : (withdrawOffer e h).lbc.record = h.lbc.record := by
  unfold withdrawOffer; dsimp only; split <;> [(split <;> simp); rfl; rfl]
@[simp] theorem withdrawOffer_lbc_pointer (e : Holder) : (withdrawOffer e h).lbc.pointer = h.lbc.pointer := by
  unfold withdrawOffer; dsimp only; split <;> [(split <;> simp); rfl; rfl]
@[simp] theorem withdrawOffer_htu_waiters (e : Holder) : (withdrawOffer e h).htu.waiters = h.htu.waiters := by
  unfold withdrawOffer; dsimp only; split <;> [(split <;> simp); rfl; rfl]
@[simp] theorem withdrawOffer_htu_stalled (e : Holder) : (withdrawOffer e h).htu.stalled = h.htu.stalled := by
  unfold withdrawOffer; dsimp only; split <;> [(split <;> simp); rfl; rfl]
@[simp] theorem withdrawOffer_htu_purge (e : Holder) : (withdrawOffer e h).htu.purge = h.htu.purge := by
  unfold withdrawOffer; dsimp only; split <;> [(split <;> simp); rfl; rfl]
@[simp] theorem withdrawOffer_htu_engaged (e : Holder) : (withdrawOffer e h).htu.engaged = h.htu.engaged := by
  unfold withdrawOffer; dsimp only; split <;> [(split <;> simp); rfl; rfl]
@[simp] theorem withdrawOffer_htu_claims (e : Holder) : (withdrawOffer e h).htu.claims = h.htu.claims := by
  unfold withdrawOffer; dsimp only; split <;> [(split <;> simp); rfl; rfl]
@[simp] theorem withdrawOffer_htu_arriving (e : Holder) : (withdrawOffer e h).htu.arriving = h.htu.arriving := by
  unfold withdrawOffer; dsimp only; split <;> [(split <;> simp); rfl; rfl]
@[simp] theorem withdrawOffer_htu_decision (e : Holder) : (withdrawOffer e h).htu.decision = h.htu.decision := by
  unfold withdrawOffer; dsimp only; split <;> [(split <;> simp); rfl; rfl]
@[simp] theorem withdrawOffer_htu_awaited (e : Holder) : (withdrawOffer e h).htu.awaited = h.htu.awaited := by
  unfold withdrawOffer; dsimp only; split <;> [(split <;> simp); rfl; rfl]
@[simp] theorem withdrawOffer_htu_rebuildTimer (e : Holder) : (withdrawOffer e h).htu.rebuildTimer = h.htu.rebuildTimer := by
  unfold withdrawOffer; dsimp only; split <;> [(split <;> simp); rfl; rfl]

/-- Posting never passes the limit of 8 GRANTs (R14). -/
theorem refillOne_posted_le (hl : h.htu.posted ≤ 8) : (refillOne h).htu.posted ≤ 8 := by
  unfold refillOne
  split
  · exact hl
  · split
    · rename_i hc
      simp [placePriority, Config.postedLimit] at *
      omega
    · exact hl

theorem refill_posted_le (k : Nat) (hl : h.htu.posted ≤ 8) : (refill k h).htu.posted ≤ 8 := by
  induction k generalizing h with
  | zero => exact hl
  | succ k ih => exact ih _ (refillOne_posted_le _ hl)

theorem departGrant_posted_le (hl : h.htu.posted ≤ 8) : (departGrant h).htu.posted ≤ 8 := by
  have hf : (h.setHtu { h.htu with posted := h.htu.posted - 1 }).htu.posted ≤ 8 := by
    simp; omega
  unfold departGrant
  dsimp only
  split
  · exact hf
  · exact refillOne_posted_le _ hf

end Sys2Proof.Machine
end

