-- ==== Sys2Proof/Laws/Cancel.lean ====
section
/-! SUPPORT. What the end of an operation, the removal of a CANCEL and the expiry of a silence timer do, one lemma a
case (R81, R86, R118, R121). -/

namespace Sys2Proof.Machine

variable (h : Hw) (n : SlotId)

/-- The slot whose operation ends (R81). -/
theorem endOperation_slot {o : Operation} (ho : (h.rqt.slot n).operation = some o) (c : ResultCode)
    (d : ResultDetail) (m : Option Mode) :
    (endOperation n c d m h).rqt.slot n = (h.rqt.slot n).ended := by
  simp [endOperation, ho, appendEntry, SlotRecord.ended]

/-- The result that stands in the queue (R81, R98). -/
theorem endOperation_queue {o : Operation} (ho : (h.rqt.slot n).operation = some o) (c : ResultCode)
    (d : ResultDetail) (m : Option Mode) :
    (endOperation n c d m h).cqu.queue = h.cqu.queue ++ [.result n o.op o.lock m c d] := by
  simp [endOperation, ho]

/-- The hold table where the result is not ACQUIRED (R81). -/
theorem endOperation_holds {o : Operation} (ho : (h.rqt.slot n).operation = some o) {c : ResultCode}
    (hc : c ≠ .acquired) (d : ResultDetail) (m : Option Mode) :
    (endOperation n c d m h).rqt.holds = withoutReservation n o.lock h.rqt.holds := by
  simp [endOperation, ho, appendEntry, withoutReservation, hc]

/-- The end of an operation leaves the other slots (R81). -/
theorem endOperation_others (c : ResultCode) (d : ResultDetail) (m : Option Mode) :
    sameSlotsBut n h.rqt (endOperation n c d m h).rqt := by
  intro k hk
  unfold endOperation
  split
  · rfl
  · simp only [appendEntry_rqt]
    rw [slot_setSlot_ne _ (Ne.symm hk)]
    rfl

/-- A self-homed CANCEL is never removed (R86). -/
theorem removeCancel_self (hs : (h.rqt.slot n).homedAt h.id = true) : removeCancel n h = h := by
  simp [removeCancel, hs]

/-- A removal that finds the CANCEL ends the slot with its cancel result (R86). -/
theorem removeCancel_found (hs : (h.rqt.slot n).homedAt h.id = false) (hl : slotEntryListed n h = true) :
    removeCancel n h = endRecordedCancel n (removeNormal (isSlotEntry n) h) := by
  simp [removeCancel, hs, hl]

/-- A removal that does not find it leaves the slot to end at its completion (R86). -/
theorem removeCancel_onBus (hs : (h.rqt.slot n).homedAt h.id = false) (hl : slotEntryListed n h = false) :
    removeCancel n h = h.setSlot n { h.rqt.slot n with ending := true } := by
  simp [removeCancel, hs, hl]

/-- The voided CANCEL of a slot that is to end at its completion is given up (R86, log 28). -/
theorem slotVoid_ending {t : Transaction} (ht : t.kind = .cancel)
    (he : (h.rqt.slot t.slot).ending = true) : slotVoid t h = endRecordedCancel t.slot h := by
  simp [slotVoid, ht, he]

/-- A sighting taken first has started the timer from zero, and the expiry does not happen (R121). -/
theorem silenceExpiry_sighted {p : StationId} (ef : Bool) (ht : (h.mbu.member p).timer = some 0) :
    silenceExpiry p ef h = h := by
  simp [silenceExpiry, silenceRuns, ht]

/-- An expiry taken while the timer runs, not held, or first where it comes together with the completion of the
peer's transaction (R118, R121). -/
theorem silenceExpiry_declares {p : StationId} (ef : Bool) {k : Nat}
    (ht : (h.mbu.member p).timer = some k) (hk : 0 < k) (hp : (h.mbu.member p).state = .present)
    (hh : silenceHeld p h = false ∨ comesTogether p h = true) :
    silenceExpiry p ef h = declareLost p ef h := by
  have : silenceHeld p h = true → comesTogether p h = true := by
    intro hs
    rcases hh with hh | hh
    · rw [hs] at hh; cases hh
    · exact hh
  by_cases hs : silenceHeld p h = true
  · simp [silenceExpiry, silenceRuns, ht, hk, hp, this hs]
  · simp [silenceExpiry, silenceRuns, ht, hk, hp, hs]

end Sys2Proof.Machine
end

