-- ==== Sys2Proof/Laws/Claims.lean ====
section
/-! SUPPORT. What settles a completion, and what the taking of a claim comes to, one lemma a function (R35, R38, R51 to
R53). -/

namespace Sys2Proof.Machine

variable (h : Hw) (s : State) (r : TxRecord) (o : Lines)

/-- What the completion phase notes makes the transaction voided exactly as `voided` says (R35). -/
theorem noteVoid_completion : (r.noteVoid r.error o.lvoid).voidSeen = true ↔ voided r o := by
  simp [TxRecord.noteVoid, voided, or_assoc]

/-- The outcome settled at completion is the one `outcomeAt` names (R38). -/
theorem settle_completion : settle (r.noteVoid r.error o.lvoid) = outcomeAt r o := by
  unfold outcomeAt
  split
  · rename_i hv
    have := (noteVoid_completion r o).mpr hv
    simp [settle, this]
  · rename_i hv
    have hc : r.voidSeen = false ∧ r.error = false ∧ o.lvoid = false := by simpa [voided, not_or] using hv
    simp [settle, hc, TxRecord.noteVoid, recordRequest]

/-- Without a void the completion settles what the record holds (R38). -/
theorem outcomeAt_unvoided (hv : ¬voided r o) : outcomeAt r o = settle r := if_neg hv

/-- A voided completion's outcome is VOID (R38). -/
theorem outcomeAt_voided (hv : voided r o) : outcomeAt r o = .void := if_pos hv

/-- Each command that takes a claim takes the oldest one that has reached a free home, where it is of its kind
(R53). -/
theorem exec_claimRow {c : Claim} {rest : List Claim} (hf : s.hw.htu.engaged = .free)
    (ha : s.hw.htu.arriving = c :: rest) (hl : c ≠ .lockTransaction)
    (ht : c = .rebuildExpiry → s.hw.htu.rebuildTimer = none) :
    exec (claimRow c) s =
      .next { s with hw := takeClaim c (s.hw.setHtu { s.hw.htu with arriving := rest }) } := by
  cases c <;>
    simp_all [claimRow, exec, execSelfHomedRequest, execGrantOutcome,
      execInternalGrantOutcome, execPurgeCause, execRebuildTimerExpiry, acts, takeArrived, rebuildExpiry,
      Claim.isSelfRequest, Claim.isGrantOutcome, Claim.isInternalOutcome, Claim.isPurgeCause]

/-- LOCK_TRANSACTION_CLAIM at a home the transaction engages (R51). -/
theorem exec_lockTransactionClaim :
    exec .lockTransactionClaim s = .next { s with hw := takeEngaged s.hw } := rfl

/-- Each claim of the list of a free home is taken as its own command takes it when it is presented (R53). -/
theorem exec_presented {c : Claim} {rest : List Claim} (hf : s.hw.htu.engaged = .free)
    (hc : s.hw.htu.claims = c :: rest) (ht : c = .rebuildExpiry → s.hw.htu.rebuildTimer = none) :
    exec (claimRow c) (s.presented c rest) = .next { s with hw := takeHead s.hw } := by
  by_cases hl : c = .lockTransaction
  · subst hl
    simp [claimRow, exec_lockTransactionClaim, State.presented, takeHead, hf, hc, takeClaim, takeTransaction,
      Htu.engage, engagedBy, Hw.setHtu]
  · rw [exec_claimRow (rest := s.hw.htu.arriving) _ (by simp [State.presented, hl, hf])
      (by simp [State.presented, hl]) hl (by simpa [State.presented, hl] using ht)]
    simp [State.presented, hl, takeHead, hf, hc, Hw.setHtu]

/-- What a free home takes at once is what the claim's own command takes (R53). -/
theorem exec_arrived {c : Claim} {rest : List Claim} (hf : s.hw.htu.engaged = .free)
    (ha : s.hw.htu.arriving = c :: rest) (hl : c ≠ .lockTransaction)
    (ht : c = .rebuildExpiry → s.hw.htu.rebuildTimer = none) :
    exec (claimRow c) s = .next { s with hw := takeArrived (fun _ => true) s.hw } := by
  rw [exec_claimRow s hf ha hl ht]
  simp [takeArrived, hf, ha]

/-- A home that is engaged, or that no claim has reached, takes none at once (R23). -/
theorem takeArrivals_idle (hn : h.htu.engaged ≠ .free ∨ h.htu.arriving = []) (k : Nat) :
    takeArrivals k h = h := by
  have hone : takeArrived (fun _ => true) h = h := by
    unfold takeArrived
    split
    · simp_all
    · rfl
  induction k with
  | zero => rfl
  | succ k ih => rw [takeArrivals, hone, ih]

/-- Where no claim has reached the home, nothing is to be taken (R53). -/
theorem arrivalsSettled_refl (hn : s.hw.htu.engaged ≠ .free ∨ s.hw.htu.arriving = []) : arrivalsSettled s s := by
  unfold arrivalsSettled
  generalize 3 * s.hw.htu.arriving.length + s.hw.htu.waiters.length + s.hw.rqt.responses.length = k
  cases k with
  | zero => rfl
  | succ k =>
    unfold arrivalsTaken
    split
    · simp_all
    · rfl

/-- A home that is engaged, or has no claim, takes none (R23). -/
theorem takeHead_idle (hn : h.htu.engaged ≠ .free ∨ h.htu.claims = []) : takeHead h = h := by
  unfold takeHead
  split
  · rename_i he hc
    simp_all
  · rfl

/-- A home that is engaged, or has no claim, takes none of its list (R23). -/
theorem takeWaiting_idle (hn : h.htu.engaged ≠ .free ∨ h.htu.claims = []) (k : Nat) : takeWaiting k h = h := by
  induction k with
  | zero => rfl
  | succ k ih => rw [takeWaiting, takeHead_idle h hn, ih]

end Sys2Proof.Machine
end

