-- ==== Sys2Proof/Laws/Exclusive.lean ====
section
/-! SUPPORT. The exclusive law of a home's holder table (R6) under the changes a home makes. -/

namespace Sys2Proof.Machine

theorem filter_exclusiveLaw {es : List Holder} (k : Holder → Bool) (he : exclusiveLaw es) :
    exclusiveLaw (es.filter k) := List.Pairwise.filter k he

/-- An alteration that keeps every entry's lock, and makes no SHARED entry EXCLUSIVE. -/
theorem map_exclusiveLaw {es : List Holder} (f : Holder → Holder)
    (hf : ∀ e, (f e).index = e.index ∧ (e.mode = .shared → (f e).mode = .shared))
    (he : exclusiveLaw es) : exclusiveLaw (es.map f) := by
  refine List.pairwise_map.mpr (List.Pairwise.imp ?_ he)
  intro a b hab hi
  rw [(hf a).1, (hf b).1] at hi
  exact ⟨(hf a).2 (hab hi).1, (hf b).2 (hab hi).2⟩

/-- An entry whose mode is compatible with its lock's entries is added (R2, R6). -/
theorem append_exclusiveLaw {es : List Holder} {e : Holder} (he : exclusiveLaw es)
    (hc : compatible e.mode (es.filter (·.index = e.index)) = true) : exclusiveLaw (es ++ [e]) := by
  refine List.pairwise_append.mpr ⟨he, List.pairwise_singleton _ _, ?_⟩
  intro a ha b hb hi
  rw [List.mem_singleton] at hb
  subst hb
  have := List.all_eq_true.mp hc a (List.mem_filter.mpr ⟨ha, by simpa using hi⟩)
  simp at this
  exact ⟨this.2, this.1⟩

/-- A decision on a request keeps the exclusive law (R6): an ACQUIRE and a REASSERT add only a compatible entry,
the others add none. -/
theorem decideRequest_exclusiveLaw (hs : HomeState) (t : Htu) (r : Request)
    (he : exclusiveLaw t.holders) : exclusiveLaw (t.change (decideRequest hs t r).2).holders := by
  have plain : ∀ c : Changes, c.addHolder = none → exclusiveLaw (t.change c).holders := by
    intro c hc
    simp only [Htu.change, hc, Option.toList_none, List.append_nil]
    split
    · refine map_exclusiveLaw _ ?_ (filter_exclusiveLaw _ he)
      intro e
      split <;> simp
    · exact filter_exclusiveLaw _ he
  have added : ∀ c : Changes, c.addHolder = some (heldEntry r) → c.share = none →
      compatible r.mode (holdersOf r.index (t.without c)) = true →
      exclusiveLaw (t.change c).holders := by
    intro c ha hn hc
    simp only [Htu.change, hn, ha, Option.toList_some]
    exact append_exclusiveLaw (filter_exclusiveLaw _ he) hc
  unfold decideRequest
  split
  · unfold decideAcquire
    dsimp only
    split
    · exact plain _ rfl
    · split
      · rename_i hg
        exact added _ rfl rfl hg.1.2
      · split
        · exact plain _ rfl
        · split
          · exact plain _ rfl
          · split <;> exact plain _ rfl
  · unfold decideRelease; split <;> exact plain _ rfl
  · unfold decideDowngrade
    split
    · exact plain _ rfl
    · split
      · split <;> exact plain _ rfl
      · exact plain _ rfl
  · unfold decideCancel
    split
    · exact plain _ rfl
    · split <;> exact plain _ rfl
  · unfold decideReassert
    split
    · exact plain _ rfl
    · split
      · exact plain _ rfl
      · split
        · exact plain _ rfl
        · split
          · exact plain _ rfl
          · split
            · rename_i hc
              refine added _ rfl rfl ?_
              have : t.without { addHolder := some (heldEntry r) } = t := by simp [Htu.without]
              rw [this]
              exact hc.1
            · exact plain _ rfl
  all_goals exact plain _ rfl

/-- A GRANT posted from the backlog changes no entry's lock or mode. -/
theorem refillOne_exclusiveLaw (h : Hw) (he : exclusiveLaw h.htu.holders) :
    exclusiveLaw (refillOne h).htu.holders := by
  unfold refillOne
  split
  · exact he
  · split
    · refine map_exclusiveLaw _ ?_ he
      intro e
      split <;> simp
    · exact he

theorem departGrant_exclusiveLaw (h : Hw) (he : exclusiveLaw h.htu.holders) :
    exclusiveLaw (departGrant h).htu.holders := by
  unfold departGrant
  dsimp only
  split
  · exact he
  · exact refillOne_exclusiveLaw _ he

theorem withdrawOffer_exclusiveLaw (e : Holder) (h : Hw) (he : exclusiveLaw h.htu.holders) :
    exclusiveLaw (withdrawOffer e h).htu.holders := by
  unfold withdrawOffer
  dsimp only
  split
  · split
    · exact departGrant_exclusiveLaw _ he
    · exact he
  · exact he
  · exact he

end Sys2Proof.Machine
end

