-- ==== Sys2Proof/Laws/HoldTable.lean ====
section
/-! SUPPORT. The local hold table keeps its law (R73, R174) under each of its operations, and what each does to a
slot's entry. -/

namespace Sys2Proof.Machine

/-- An alteration that keeps every entry's position, slot and lock keeps the table's law. -/
theorem map_holdTableLaw {t : List (Nat × Hold)} (g : Nat × Hold → Nat × Hold)
    (hg : ∀ p, (g p).1 = p.1 ∧ (g p).2.slot = p.2.slot ∧ (g p).2.lock = p.2.lock)
    (hl : holdTableLaw t) : holdTableLaw (t.map g) := by
  refine ⟨?_, ?_⟩
  · refine List.pairwise_map.mpr (hl.1.imp ?_)
    intro p q hpq
    rw [(hg p).1, (hg q).1, (hg p).2.1, (hg q).2.1, (hg p).2.2, (hg q).2.2]
    exact hpq
  · intro p hp
    obtain ⟨q, hq, rfl⟩ := List.mem_map.mp hp
    rw [(hg q).1]
    exact hl.2 q hq

theorem filter_holdTableLaw {t : List (Nat × Hold)} (k : Nat × Hold → Bool) (hl : holdTableLaw t) :
    holdTableLaw (t.filter k) :=
  ⟨hl.1.filter k, fun p hp => hl.2 p (List.mem_of_mem_filter hp)⟩

theorem removeHold_law {t : List (Nat × Hold)} (n : SlotId) (l : LockId) (hl : holdTableLaw t) :
    holdTableLaw (removeHold n l t) := filter_holdTableLaw _ hl

theorem updateHold_law {t : List (Nat × Hold)} (n : SlotId) (l : LockId) (f : Hold → Hold)
    (hf : ∀ e, (f e).slot = e.slot ∧ (f e).lock = e.lock) (hl : holdTableLaw t) :
    holdTableLaw (updateHold n l f t) := by
  refine map_holdTableLaw _ ?_ hl
  intro p
  split
  · exact ⟨rfl, hf p.2⟩
  · exact ⟨rfl, rfl, rfl⟩

theorem clearMarks_law {t : List (Nat × Hold)} (s : StationId) (hl : holdTableLaw t) :
    holdTableLaw (clearMarks s t) := by
  refine map_holdTableLaw _ ?_ hl
  intro p
  split <;> exact ⟨rfl, rfl, rfl⟩

theorem revoke_law {t : List (Nat × Hold)} (s : StationId) (hl : holdTableLaw t) :
    holdTableLaw (t.map fun p => (p.1, revokeHold s p.2)) := by
  refine map_holdTableLaw _ ?_ hl
  intro p
  unfold revokeHold
  split <;> exact ⟨rfl, rfl, rfl⟩

theorem empty_holdTableLaw : holdTableLaw [] := ⟨List.Pairwise.nil, by simp⟩

/-- An insertion from position `pos` on: the entries are the old ones and the new one, whose position is at most
`pos` plus the number of old ones. -/
theorem mem_insertHoldFrom {pos : Nat} {e : Hold} {t : List (Nat × Hold)}
    (hs : t.Pairwise fun p q => p.1 < q.1) (hge : ∀ p ∈ t, pos ≤ p.1) {p : Nat × Hold}
    (hp : p ∈ insertHoldFrom pos e t) : p ∈ t ∨ (p.2 = e ∧ pos ≤ p.1 ∧ p.1 ≤ pos + t.length) := by
  induction t generalizing pos with
  | nil =>
    simp [insertHoldFrom] at hp
    subst hp
    exact .inr ⟨rfl, Nat.le_refl _, by simp⟩
  | cons q t ih =>
    have hq := hge q (by simp)
    have hs' := List.pairwise_cons.mp hs
    unfold insertHoldFrom at hp
    split at hp
    · rcases List.mem_cons.mp hp with rfl | hp
      · exact .inr ⟨rfl, Nat.le_refl _, by simp⟩
      · exact .inl hp
    · rename_i hlt
      rcases List.mem_cons.mp hp with rfl | hp
      · exact .inl (by simp)
      · rcases ih hs'.2 (fun r hr => hs'.1 r hr) hp with hm | ⟨he, h1, h2⟩
        · exact .inl (List.mem_cons_of_mem _ hm)
        · refine .inr ⟨he, by omega, ?_⟩
          simp only [List.length_cons]
          omega

theorem insertHoldFrom_pairwise {pos : Nat} {e : Hold} {t : List (Nat × Hold)}
    (hs : t.Pairwise fun p q => p.1 < q.1 ∧ ¬(p.2.slot = q.2.slot ∧ p.2.lock = q.2.lock))
    (hge : ∀ p ∈ t, pos ≤ p.1) (hnew : ∀ p ∈ t, ¬(p.2.slot = e.slot ∧ p.2.lock = e.lock)) :
    (insertHoldFrom pos e t).Pairwise fun p q =>
      p.1 < q.1 ∧ ¬(p.2.slot = q.2.slot ∧ p.2.lock = q.2.lock) := by
  induction t generalizing pos with
  | nil => simp [insertHoldFrom]
  | cons q t ih =>
    have hs' := List.pairwise_cons.mp hs
    have hlt' : ∀ r ∈ t, q.1 + 1 ≤ r.1 := fun r hr => (hs'.1 r hr).1
    unfold insertHoldFrom
    split
    · rename_i hlt
      refine List.pairwise_cons.mpr ⟨?_, hs⟩
      intro r hr
      refine ⟨?_, fun hc => hnew r hr ⟨hc.1.symm, hc.2.symm⟩⟩
      rcases List.mem_cons.mp hr with rfl | hr
      · exact hlt
      · exact Nat.lt_trans hlt (hs'.1 r hr).1
    · refine List.pairwise_cons.mpr ⟨?_, ih hs'.2 hlt' fun r hr => hnew r (List.mem_cons_of_mem _ hr)⟩
      intro r hr
      rcases mem_insertHoldFrom (hs'.2.imp fun h => h.1) hlt' hr with hm | ⟨he, h1, _⟩
      · exact hs'.1 r hm
      · exact ⟨by omega, fun hc => hnew q (by simp) ⟨by rw [hc.1, he], by rw [hc.2, he]⟩⟩

/-- The slot has no entry for the lock exactly when no entry of the table is that slot's for that lock. -/
theorem findHold_none {n : SlotId} {l : LockId} {t : List (Nat × Hold)} :
    findHold n l t = none ↔ ∀ p ∈ t, ¬(p.2.slot = n ∧ p.2.lock = l) := by
  simp [findHold]

/-- A new entry put into a table that is not full and has no entry of its slot for its lock (R73, R76). -/
theorem insertHold_law {t : List (Nat × Hold)} {e : Hold} (hl : holdTableLaw t)
    (hroom : t.length < 128) (hnew : findHold e.slot e.lock t = none) :
    holdTableLaw (insertHold e t) := by
  refine ⟨insertHoldFrom_pairwise hl.1 (fun _ _ => Nat.zero_le _) (findHold_none.mp hnew), ?_⟩
  intro p hp
  rcases mem_insertHoldFrom (hl.1.imp fun h => h.1) (fun _ _ => Nat.zero_le _) hp with hm | ⟨_, _, h2⟩
  · exact hl.2 p hm
  · omega

/-! ### The law under the tracker's operations -/

theorem setHolds_law (h : Hw) {t : List (Nat × Hold)} (ht : holdTableLaw t) :
    holdTableLaw (h.setHolds t).rqt.holds := ht

theorem walkerPlaceOne_law (h : Hw) (hl : holdTableLaw h.rqt.holds) :
    holdTableLaw (walkerPlaceOne h).rqt.holds := by
  unfold walkerPlaceOne
  split
  · split
    · split
      · rename_i e _
        exact updateHold_law e.slot e.lock (fun x => { x with mark := true }) (fun _ => ⟨rfl, rfl⟩) hl
      · exact hl
    · exact hl
  · exact hl

theorem walkerAct_law (h : Hw) (hl : holdTableLaw h.rqt.holds) :
    holdTableLaw (walkerAct h).rqt.holds :=
  walkerPlaceOne_law _ (walkerPlaceOne_law _ (walkerPlaceOne_law _ (walkerPlaceOne_law _ hl)))

theorem endOperation_law (n : SlotId) (c : ResultCode) (d : ResultDetail) (m : Option Mode) (h : Hw)
    (hl : holdTableLaw h.rqt.holds) : holdTableLaw (endOperation n c d m h).rqt.holds := by
  unfold endOperation
  split
  · exact hl
  · simp only [appendEntry_rqt, setSlot_holds, setHolds_holds]
    split
    · exact removeHold_law _ _ hl
    · exact hl

theorem dropOperationHold_law (n : SlotId) (h : Hw) (hl : holdTableLaw h.rqt.holds) :
    holdTableLaw (dropOperationHold n h).rqt.holds := by
  unfold dropOperationHold
  split
  · exact hl
  · exact removeHold_law _ _ hl

theorem setOperationHold_law (n : SlotId) (s : HoldState) (m : Mode) (h : Hw)
    (hl : holdTableLaw h.rqt.holds) : holdTableLaw (setOperationHold n s m h).rqt.holds := by
  unfold setOperationHold
  split
  · exact hl
  · exact updateHold_law _ _ _ (fun _ => ⟨rfl, rfl⟩) hl

end Sys2Proof.Machine
end

