-- ==== Sys2Proof/Laws/Walker.lean ====
section
/-! SUPPORT. What an act of the reassert walker can do, said once: `walkerAct_placed` (R141, R143). -/

namespace Sys2Proof.Machine

/-- The walker's choice: no hold to send is left, or it is one to send, and comes before every other
(R143, step 1). -/
theorem nextReassert_spec (s : StationId) (t : List (Nat × Hold)) :
    (nextReassert s t = none → ∀ p ∈ t, toReassert s p.2 = false)
    ∧ ∀ e, nextReassert s t = some e →
        (∃ p ∈ t, p.2 = e) ∧ toReassert s e = true
        ∧ ∀ p ∈ t, toReassert s p.2 = true → holdBefore e p.2 = true := by
  have key : ∀ (l : List Hold) (b : Option Hold),
      let r := l.foldl (fun best e =>
        match best with
        | none => some e
        | some b => if holdBefore b e then some b else some e) b
      (r = none → l = [] ∧ b = none)
      ∧ ∀ e, r = some e → (e ∈ l ∨ b = some e) ∧ (∀ f ∈ l, holdBefore e f = true)
          ∧ ∀ f, b = some f → holdBefore e f = true := by
    intro l
    induction l with
    | nil =>
      intro b
      refine ⟨fun h => ⟨rfl, h⟩, fun e h => ⟨.inr h, by simp, ?_⟩⟩
      intro f hf
      simp only [List.foldl_nil] at h
      rw [hf] at h
      cases h
      simp [holdBefore]
    | cons a l ih =>
      intro b
      cases b with
      | none =>
        obtain ⟨h1, h2⟩ := ih (some a)
        refine ⟨fun h => absurd (h1 h).2 (by simp), fun e h => ?_⟩
        obtain ⟨hm, hl, hb⟩ := h2 e h
        refine ⟨?_, ?_, by simp⟩
        · rcases hm with hm | hm
          · exact .inl (List.mem_cons_of_mem _ hm)
          · cases hm; exact .inl List.mem_cons_self
        · intro f hf
          rcases List.mem_cons.1 hf with rfl | hf
          · exact hb _ rfl
          · exact hl f hf
      | some b =>
        simp only [List.foldl_cons]
        by_cases hba : holdBefore b a = true
        · simp only [hba, if_true]
          obtain ⟨h1, h2⟩ := ih (some b)
          refine ⟨fun h => absurd (h1 h).2 (by simp), fun e h => ?_⟩
          obtain ⟨hm, hl, hb⟩ := h2 e h
          refine ⟨hm.imp (List.mem_cons_of_mem _) id, ?_, hb⟩
          intro f hf
          rcases List.mem_cons.1 hf with rfl | hf
          · have := hb b rfl
            simp only [holdBefore, Bool.or_eq_true, Bool.and_eq_true, decide_eq_true_eq] at this hba ⊢
            omega
          · exact hl f hf
        · simp only [hba]
          obtain ⟨h1, h2⟩ := ih (some a)
          refine ⟨fun h => absurd (h1 h).2 (by simp), fun e h => ?_⟩
          obtain ⟨hm, hl, hb⟩ := h2 e h
          refine ⟨?_, ?_, ?_⟩
          · rcases hm with hm | hm
            · exact .inl (List.mem_cons_of_mem _ hm)
            · cases hm; exact .inl List.mem_cons_self
          · intro f hf
            rcases List.mem_cons.1 hf with rfl | hf
            · exact hb _ rfl
            · exact hl f hf
          · intro f hf
            cases hf
            have := hb a rfl
            simp only [holdBefore, Bool.or_eq_true, Bool.and_eq_true, decide_eq_true_eq, not_or, not_and,
              not_lt, not_le] at this hba ⊢
            omega
  have hk := key ((t.map (·.2)).filter (toReassert s)) none
  refine ⟨fun h p hp => ?_, fun e h => ?_⟩
  · have := (hk.1 h).1
    rw [List.filter_eq_nil_iff] at this
    simpa using this p.2 (List.mem_map_of_mem hp)
  · obtain ⟨hm, hl, -⟩ := hk.2 e h
    rcases hm with hm | hm
    · obtain ⟨hm, hr⟩ := List.mem_filter.1 hm
      obtain ⟨p, hp, rfl⟩ := List.mem_map.1 hm
      exact ⟨⟨p, hp, rfl⟩, hr, fun q hq hqr => hl _ (List.mem_filter.2 ⟨List.mem_map_of_mem hq, hqr⟩)⟩
    · cases hm

/-- A hold owed is one the walker has to send. -/
theorem toReassert_iff (s : StationId) (e : Hold) : toReassert s e = true ↔ walkerOwes s e := by
  simp [toReassert, walkerOwes, and_assoc]

/-- `walkerPlaced` but for its last clause, with the holds that are not marked yet. -/
def walkerPlacing (holds : List (Nat × Hold)) (listed : List Transaction) (count : Nat) (h : Hw)
    (new : List Transaction) : Prop :=
  (h.lbc.priority = listed ++ new ∧ h.rqt.outstanding = count + new.length
    ∧ unmarked h.rqt.holds = unmarked holds
    ∧ (∀ p ∈ holds, p.2.mark = true → p ∈ h.rqt.holds)
    ∧ new.Pairwise (fun x y => x.endFlag = false ∧ (y.endFlag = true ∨ walksBefore x.lock x.slot y.lock y.slot))
    ∧ (∀ x ∈ new, x.endFlag = false →
        (∃ p ∈ holds, h.rqt.homes.head? = some (homeOf p.2.lock) ∧ walkerOwes (homeOf p.2.lock) p.2
          ∧ x = { kind := .reassert, slot := p.2.slot, mode := p.2.mode, lock := p.2.lock }
          ∧ (p.1, { p.2 with mark := true }) ∈ h.rqt.holds)
        ∧ ∀ e ∈ h.rqt.holds, walkerOwes (homeOf x.lock) e.2 → walksBefore x.lock x.slot e.2.lock e.2.slot)
    ∧ (∀ x ∈ new, x.endFlag = true → ∃ p, h.rqt.homes.head? = some p
        ∧ x = { kind := .reassert, endFlag := true, lock := lockAt p 0 } ∧ h.rqt.phase = some .closing
        ∧ ∀ e ∈ h.rqt.holds, ¬walkerOwes p e.2)
    ∧ (h.scu.flushing = true → new = []))
  ∧ ∀ p ∈ h.rqt.holds, p.2.mark = false → p ∈ holds

/-- A mark changes nothing but marks. -/
theorem unmarked_mark (n : SlotId) (l : LockId) (t : List (Nat × Hold)) :
    unmarked (updateHold n l (fun x => { x with mark := true }) t) = unmarked t := by
  simp only [unmarked, updateHold, List.map_map]
  refine List.map_congr_left fun p _ => ?_
  simp only [Function.comp_apply]
  split <;> rfl

/-- An unmarked hold of a table in which one slot and lock was marked stood there before, and is another's. -/
theorem unmarked_of_mem_mark {n : SlotId} {l : LockId} {t : List (Nat × Hold)} {p : Nat × Hold}
    (hp : p ∈ updateHold n l (fun x => { x with mark := true }) t) (hm : p.2.mark = false) :
    p ∈ t ∧ ¬(p.2.slot = n ∧ p.2.lock = l) := by
  obtain ⟨q, hq, rfl⟩ := List.mem_map.1 hp
  by_cases hc : q.2.slot = n ∧ q.2.lock = l
  · simp [hc] at hm
  · simp only [hc, if_false] at hm ⊢
    exact ⟨hq, not_false⟩

/-- A marked hold stays when another, or it again, is marked. -/
theorem marked_mem_mark {n : SlotId} {l : LockId} {t : List (Nat × Hold)} {p : Nat × Hold}
    (hp : p ∈ t) (hm : p.2.mark = true) :
    p ∈ updateHold n l (fun x => { x with mark := true }) t := by
  refine List.mem_map.2 ⟨p, hp, ?_⟩
  obtain ⟨k, e⟩ := p
  cases e
  simp only at hm
  subst hm
  split <;> rfl

/-- One placement of the walker goes on from the placements before it. -/
theorem walkerPlaceOne_placing {holds : List (Nat × Hold)} {listed : List Transaction} {count : Nat} {h : Hw}
    {new : List Transaction} (hp : walkerPlacing holds listed count h new) :
    ∃ new', walkerPlacing holds listed count (walkerPlaceOne h) new' := by
  unfold walkerPlaceOne
  split
  · next s tl hhomes hphase =>
    split
    · next hgo =>
      obtain ⟨⟨h1, h2, h3, h4, h5, h6, h7, h8⟩, h9⟩ := hp
      have hfl : h.scu.flushing = false := by simpa using hgo.2.1
      have hno : ∀ x ∈ new, x.endFlag = false := by
        intro x hx
        by_contra hc
        obtain ⟨_, _, _, hcl, _⟩ := h7 x hx (by simpa using hc)
        rw [hphase] at hcl
        cases hcl
      have hhead : h.rqt.homes.head? = some s := by rw [hhomes]; rfl
      have hat : ∀ x ∈ new, homeOf x.lock = s := by
        intro x hx
        obtain ⟨⟨p, _, hhd, _, rfl, _⟩, _⟩ := h6 x hx (hno x hx)
        rw [hhead] at hhd
        exact (Option.some.inj hhd).symm
      obtain ⟨hnone, hsome⟩ := nextReassert_spec s h.rqt.holds
      split
      · next e hne =>
        obtain ⟨⟨q, hq, rfl⟩, hr, hmin⟩ := hsome e hne
        have how := (toReassert_iff s q.2).1 hr
        have hqm : q.2.mark = false := how.2.2
        have hs : homeOf q.2.lock = s := how.1
        refine ⟨new ++ [reassertOf q.2], ⟨?_, ?_, ?_, ?_, ?_, ?_, ?_, ?_⟩, ?_⟩
        · simp [placePriority, h1]
        · simp [placePriority, h2, Nat.add_assoc]
        · simp only [placePriority]
          rw [unmarked_mark, h3]
        · intro p hp hm
          exact marked_mem_mark (h4 p hp hm) hm
        · rw [List.pairwise_append]
          refine ⟨h5, List.pairwise_singleton _ _, ?_⟩
          intro x hx y hy
          rw [List.mem_singleton] at hy
          subst hy
          exact ⟨hno x hx, .inr ((h6 x hx (hno x hx)).2 q hq (by rw [hat x hx]; exact how))⟩
        · intro x hx _
          rcases List.mem_append.1 hx with hx | hx
          · obtain ⟨⟨p, hp, hhd, ho, hxe, hpm⟩, hbef⟩ := h6 x hx (hno x hx)
            refine ⟨⟨p, hp, hhd, ho, hxe, marked_mem_mark hpm rfl⟩, ?_⟩
            intro e he heo
            exact hbef e (unmarked_of_mem_mark he heo.2.2).1 heo
          · rw [List.mem_singleton] at hx
            subst hx
            refine ⟨⟨q, h9 q hq hqm, by rw [hs]; exact hhead, by rw [hs]; exact how, rfl, ?_⟩, ?_⟩
            · exact List.mem_map.2 ⟨q, hq, by simp⟩
            · intro e he heo
              obtain ⟨hem, hne⟩ := unmarked_of_mem_mark he heo.2.2
              have hb := hmin e hem ((toReassert_iff s e.2).2 (by
                have : homeOf (reassertOf q.2).lock = s := hs
                rw [this] at heo
                exact heo))
              simp only [holdBefore, Bool.or_eq_true, Bool.and_eq_true, decide_eq_true_eq] at hb
              simp only [walksBefore, reassertOf, Fin.lt_def, Fin.ext_iff] at hb hne ⊢
              omega
        · intro x hx hxe
          rcases List.mem_append.1 hx with hx | hx
          · rw [hno x hx] at hxe
            cases hxe
          · rw [List.mem_singleton] at hx
            subst hx
            cases hxe
        · intro hf
          simp only [placePriority] at hf
          rw [hfl] at hf
          cases hf
        · intro p hp hm
          exact h9 p (unmarked_of_mem_mark hp hm).1 hm
      · next hne =>
        have hempty : ∀ p ∈ h.rqt.holds, ¬walkerOwes s p.2 := by
          intro p hp ho
          have := hnone hne p hp
          rw [(toReassert_iff s p.2).2 ho] at this
          cases this
        refine ⟨new ++ [closingReassert s], ⟨?_, ?_, h3, h4, ?_, ?_, ?_, ?_⟩, h9⟩
        · simp [placePriority, h1]
        · simp [placePriority, h2, Nat.add_assoc]
        · rw [List.pairwise_append]
          refine ⟨h5, List.pairwise_singleton _ _, ?_⟩
          intro x hx y hy
          rw [List.mem_singleton] at hy
          subst hy
          exact ⟨hno x hx, .inl rfl⟩
        · intro x hx hxe
          rcases List.mem_append.1 hx with hx | hx
          · exact h6 x hx hxe
          · rw [List.mem_singleton] at hx
            subst hx
            cases hxe
        · intro x hx hxe
          rcases List.mem_append.1 hx with hx | hx
          · rw [hno x hx] at hxe
            cases hxe
          · rw [List.mem_singleton] at hx
            subst hx
            exact ⟨s, hhead, rfl, rfl, hempty⟩
        · intro hf
          simp only [placePriority] at hf
          rw [hfl] at hf
          cases hf
    · exact ⟨new, hp⟩
  · exact ⟨new, hp⟩

/-- A walker that may go on and has less than `k` outstanding has more after one placement. -/
theorem walkerPlaceOne_stops {h : Hw} {k : Nat} (hk : k < 4)
    (hl : h.scu.station.present = true → h.scu.flushing = false → h.rqt.homes ≠ [] →
      h.rqt.phase = some .sending → k ≤ h.rqt.outstanding) :
    let g := walkerPlaceOne h
    g.scu.station.present = true → g.scu.flushing = false → g.rqt.homes ≠ [] →
      g.rqt.phase = some .sending → k + 1 ≤ g.rqt.outstanding := by
  unfold walkerPlaceOne
  split
  · next s tl hhomes hphase =>
    split
    · next hgo =>
      split
      · intro g h1 h2 h3 _
        have := hl h1 h2 (by rw [hhomes]; simp) hphase
        simp only [placePriority, g]
        omega
      · intro g _ _ _ h4
        simp [placePriority, g] at h4
    · next hno =>
      intro g h1 h2 _ _
      simp only [g] at h1 h2 ⊢
      simp only [h1, h2, Config.outstandingLimit, true_and, not_lt, Bool.false_eq_true,
        not_false_eq_true] at hno
      omega
  · next hno =>
    intro g h1 h2 h3 h4
    obtain ⟨s, tl, hc⟩ := List.exists_cons_of_ne_nil h3
    exact absurd h4 (hno s tl hc)

/-- One placement of the walker moves the phase as `walkGoesOn` says. -/
theorem walkerPlaceOne_goesOn {was : Option WalkerPhase} {listed : List Transaction} {h : Hw}
    (hp : ∃ new, h.lbc.priority = listed ++ new ∧ walkGoesOn was h new) :
    ∃ new, (walkerPlaceOne h).lbc.priority = listed ++ new ∧ walkGoesOn was (walkerPlaceOne h) new := by
  obtain ⟨new, hl, hs, hn⟩ := hp
  unfold walkerPlaceOne
  split
  · next s tl hhomes hphase =>
    have hwas : was = some .sending := by
      by_contra hc
      exact hc ((hn hc).2.symm.trans hphase)
    have hno : ¬∃ x ∈ new, x.endFlag = true := by
      intro hc
      have hb := hs hwas
      rw [walkBegun, if_pos hc, hphase] at hb
      cases hb
    split
    · split
      · next e _ =>
        refine ⟨new ++ [reassertOf e], by simp [placePriority, hl], fun _ => ?_, fun hc => absurd hwas hc⟩
        have hno' : ¬∃ x ∈ new ++ [reassertOf e], x.endFlag = true := by
          rintro ⟨x, hx, hxe⟩
          rcases List.mem_append.1 hx with hx | hx
          · exact hno ⟨x, hx, hxe⟩
          · rw [List.mem_singleton] at hx
            subst hx
            cases hxe
        rw [walkBegun, if_neg hno']
        exact hphase
      · refine ⟨new ++ [closingReassert s], by simp [placePriority, hl], fun _ => ?_, fun hc => absurd hwas hc⟩
        rw [walkBegun, if_pos ⟨_, List.mem_append_right _ (List.mem_singleton.2 rfl), rfl⟩]
        rfl
    · exact ⟨new, hl, hs, hn⟩
  · exact ⟨new, hl, hs, hn⟩

/-- What an act of the walker can do: it places REASSERTs as `walkerPlaced` says, and moves its phase as `walkGoesOn`
says (R141, R143). -/
theorem walkerAct_placed (h : Hw) :
    ∃ new, walkGoesOn h.rqt.phase (walkerAct h) new
      ∧ walkerPlaced h.rqt.holds h.lbc.priority h.rqt.outstanding (walkerAct h) new := by
  have h0 : walkerPlacing h.rqt.holds h.lbc.priority h.rqt.outstanding h [] :=
    ⟨⟨by simp, by simp, rfl, fun p hp _ => hp, List.Pairwise.nil, by simp, by simp, fun _ => rfl⟩,
      fun p hp _ => hp⟩
  obtain ⟨_, h1⟩ := walkerPlaceOne_placing h0
  obtain ⟨_, h2⟩ := walkerPlaceOne_placing h1
  obtain ⟨_, h3⟩ := walkerPlaceOne_placing h2
  obtain ⟨new, ⟨a1, a2, a3, a4, a5, a6, a7, a8⟩, -⟩ := walkerPlaceOne_placing h3
  have hstop := walkerPlaceOne_stops (k := 3) (by omega) (walkerPlaceOne_stops (k := 2) (by omega)
    (walkerPlaceOne_stops (k := 1) (by omega) (walkerPlaceOne_stops (h := h) (k := 0) (by omega)
      fun _ _ _ _ => Nat.zero_le _)))
  obtain ⟨new', hl, hg⟩ := walkerPlaceOne_goesOn (walkerPlaceOne_goesOn (walkerPlaceOne_goesOn
    (walkerPlaceOne_goesOn (was := h.rqt.phase) (listed := h.lbc.priority) (h := h)
      ⟨[], by simp, fun hs => by simpa [walkBegun] using hs, fun _ => ⟨rfl, rfl⟩⟩)))
  rw [a1, List.append_cancel_left_eq] at hl
  subst hl
  exact ⟨new, hg, a1, a2, a3, a4, a5, a6, a7, a8, hstop⟩

end Sys2Proof.Machine
end

