-- ==== Sys2Proof/Laws/Offers.lean ====
section
/-! SUPPORT. What an internal offer, an offer and the evaluation of a lock do, one lemma a function: the offers a lock's
evaluation makes are those `offersTaken` lists (R10, R11, R17, R92). -/

namespace Sys2Proof.Machine

variable (h : Hw) (n : SlotId) (l : LockId) (m : Mode)

/-- The rows of R90 answer ACCEPT exactly where `acceptsOffer` says. -/
theorem answerOffer_accepts : (answerOffer n l m h).1 = true ↔ acceptsOffer n l m h := by
  unfold answerOffer acceptsOffer
  cases hf : h.scu.flushing <;> cases ho : (h.rqt.slot n).operation <;>
    simp [SlotRecord.hasOp, SlotRecord.onLock, ho]
  split
  · simpa using ‹_›
  · split <;> simpa using ‹¬(_ ∧ _ ∧ _ ∧ _)›

/-- `k` responses taken are those `responsesTaken` takes. -/
theorem takeSlotResponses_taken (k : Nat) : responsesTaken n k h (takeSlotResponses n k h) := by
  induction k generalizing h with
  | zero => rfl
  | succ k ih => exact ⟨{ hw := takeSlotResponse n h, pending := [] }, rfl, ih _⟩

/-- An act of the walker writes the hold table, its phase and count, and the priority list alone. -/
theorem walkerAct_frame :
    walkerAct h =
      { h with
        lbc := { h.lbc with priority := (walkerAct h).lbc.priority }
        rqt := { h.rqt with
          holds := (walkerAct h).rqt.holds, phase := (walkerAct h).rqt.phase
          outstanding := (walkerAct h).rqt.outstanding } } := by
  dsimp only
  rw [← walkerAct_scu h, ← walkerAct_htu h, ← walkerAct_mbu h, ← walkerAct_cqu h, ← walkerAct_port h,
    ← walkerAct_rqt_slots h, ← walkerAct_rqt_answer h, ← walkerAct_rqt_waitLimits h, ← walkerAct_rqt_homes h,
    ← walkerAct_rqt_responses h, ← walkerAct_lbc_normal h, ← walkerAct_lbc_pointer h, ← walkerAct_lbc_record h]

/-- A slot that accepts has its entry HELD, its ACQUIRE ended with ACQUIRED, and the walker acts (R82, R92). -/
theorem acquireHeld_accepting {o : Operation} (ho : (h.rqt.slot n).operation = some o) (hop : o.op = .acquire)
    (hl : o.lock = l) (hm : o.mode = some m) :
    acquireHeld n m h = walkerAct
      (appendEntry (.result n .acquire l (some m) .acquired .none)
        ((h.setHolds (updateHold n l (fun e => { e with state := .held, mode := m }) h.rqt.holds)).setSlot n
          (h.rqt.slot n).ended)) := by
  subst hl
  have hs : ∀ t, ((h.setHolds t).rqt.slot n) = h.rqt.slot n := fun _ => rfl
  simp only [acquireHeld, ho, endAcquire, hs, Option.bind_some, hm, endOperation, hop, ne_eq, not_true_eq_false,
    false_and, if_false, SlotRecord.ended, ho]
  rfl

/-- What an internal offer does (R92): after the responses handed for the slot (log 11), the tracker's answer. -/
theorem internalOffer_answered :
    ∃ c, responsesTaken n h.rqt.responses.length h c ∧ offerAnswered n l m c (internalOffer n l m h) := by
  refine ⟨_, takeSlotResponses_taken h n _, ?_⟩
  unfold internalOffer
  generalize takeSlotResponses n h.rqt.responses.length h = c
  dsimp only
  constructor
  · intro ha
    have hans := (answerOffer_accepts c n l m).2 ha
    obtain ⟨-, -, o, ho, hop, hl, hm⟩ := ha
    rw [if_pos hans, acquireHeld_accepting c n l m ho hop hl hm]
    generalize hg : appendEntry _ _ = g
    have hgs : g.rqt.slot n = (c.rqt.slot n).ended := by
      rw [← hg]; simp
    have hgo : sameSlotsBut n c.rqt g.rqt := by
      intro k hk
      rw [← hg]
      simp only [appendEntry_rqt]
      exact slot_setSlot_ne _ (Ne.symm hk) _
    have hslots : ∀ k, (walkerAct g).rqt.slot k = g.rqt.slot k := by
      intro k
      rw [walkerAct_frame g]
      rfl
    obtain ⟨new, hn1, hn2⟩ := walkerAct_placed g
    have hgc : g.cqu = (appendEntry (.result n .acquire l (some m) .acquired .none) c).cqu := by
      rw [← hg]; rfl
    refine ⟨?_, ?_, ?_, ?_, ⟨new, ?_, ?_⟩, ?_⟩
    · rw [hans, walkerAct_frame g, ← hg]; rfl
    · exact (hslots n).trans hgs
    · intro k hk
      exact (hslots k).trans (hgo k hk)
    · rw [← hgc, walkerAct_frame g]; rfl
    · have : g.rqt.phase = c.rqt.phase := by rw [← hg]; rfl
      rw [← this]; exact hn1
    · rw [← hg] at hn2 ⊢
      exact hn2
    · rw [hans, walkerAct_frame g, ← hg]; rfl
  · intro ha
    have hans : (answerOffer n l m c).1 = false := by
      rw [← Bool.not_eq_true]
      exact fun hc => ha ((answerOffer_accepts c n l m).1 hc)
    rw [if_neg (by simp [hans]), hans]
    rfl

/-- What an offer to the head of a lock's queue does (R11). -/
theorem offer_made {i : LockIndex} {w : Waiter} (hw : headWaiter i h.htu = some w)
    (hc : compatible w.mode (holdersOf i h.htu) = true) (hf : holderFree h.htu = true) :
    ∃ e, offerMade e h (offer w h) := by
  have hi : w.index = i := by
    have := List.find?_some hw
    simpa using this
  subst hi
  have hcomp : ∀ f ∈ h.htu.holders, f.index = w.index → w.mode = .shared ∧ f.mode = .shared := by
    intro f hfm hfi
    have := List.all_eq_true.1 hc f (List.mem_filter.2 ⟨hfm, by simpa using hfi⟩)
    simpa using this
  have hfree : h.htu.holders.length < 512 := by simpa [holderFree, Config.holderCapacity] using hf
  unfold offer
  split
  · next hs =>
    refine ⟨offeredEntry w none, hw, rfl, hcomp, hfree, fun _ => ⟨rfl, ?_⟩, fun hn => absurd hs hn,
      fun hn => absurd hs hn⟩
    exact internalOffer_answered (h.setHtu (h.htu.moveToOffered w none)) _ _ _
  · next hs =>
    split
    · next hp =>
      refine ⟨offeredEntry w (some true), hw, rfl, hcomp, hfree, fun hn => absurd hn hs, fun _ _ => ⟨rfl, rfl⟩,
        fun _ hn => absurd hp (Nat.not_lt.2 hn)⟩
    · next hp =>
      exact ⟨offeredEntry w (some false), hw, rfl, hcomp, hfree, fun hn => absurd hn hs,
        fun _ hn => absurd hn hp, fun _ _ => ⟨rfl, rfl⟩⟩

/-- Offers made one after another. -/
theorem offersTaken_append {es fs : List Holder} {a b c : Hw} (h1 : offersTaken es a b) (h2 : offersTaken fs b c) :
    offersTaken (es ++ fs) a c := by
  induction es generalizing a with
  | nil =>
    obtain ⟨st, rfl⟩ := h1
    cases fs with
    | nil => obtain ⟨st', rfl⟩ := h2; exact ⟨st', rfl⟩
    | cons f fs => obtain ⟨st', u, hm, ht⟩ := h2; exact ⟨st', u, hm, ht⟩
  | cons e es ih =>
    obtain ⟨st, u, hm, ht⟩ := h1
    exact ⟨st, u, hm, ih ht⟩

/-- The offers of a lock's evaluation (R10). -/
theorem evaluateFrom_offersTaken (i : LockIndex) (k : Nat) : ∃ new, offersTaken new h (evaluateFrom i k h) := by
  induction k generalizing h with
  | zero => exact ⟨[], _, rfl⟩
  | succ k ih =>
    unfold evaluateFrom
    split
    · exact ⟨[], _, rfl⟩
    · next w hw =>
      split
      · next hc =>
        split
        · next hf =>
          obtain ⟨e, he⟩ := offer_made h hw hc hf
          obtain ⟨new, hn⟩ := ih (offer w h)
          exact ⟨e :: new, h.htu.stalled, _, he, hn⟩
        · unfold stall
          split
          · exact ⟨[], h.htu.stalled, rfl⟩
          · exact ⟨[], _, rfl⟩
      · exact ⟨[], _, rfl⟩

/-- The offers of an evaluation of a lock (R10). -/
theorem evaluate_offersTaken (i : LockIndex) : ∃ new, offersTaken new h (evaluate i h) :=
  evaluateFrom_offersTaken h i _

/-- The offers of evaluations one after another, each made or left out. -/
theorem foldl_offersTaken (f : Hw → LockIndex → Hw) (hf : ∀ g i, f g i = evaluate i g ∨ f g i = g)
    (locks : List LockIndex) : ∃ new, offersTaken new h (locks.foldl f h) := by
  induction locks generalizing h with
  | nil => exact ⟨[], h.htu.stalled, rfl⟩
  | cons i locks ih =>
    obtain ⟨new, hn⟩ := ih (f h i)
    rcases hf h i with he | he
    · obtain ⟨new', hn'⟩ := evaluate_offersTaken h i
      rw [← he] at hn'
      exact ⟨_, offersTaken_append hn' hn⟩
    · rw [he] at hn
      exact ⟨new, by simpa [he] using hn⟩

/-- The offers of a stalled-lock pass (R13). -/
theorem stalledPass_offersTaken : ∃ new, offersTaken new h (stalledPass h) :=
  foldl_offersTaken h (fun g i => if holderFree g.htu then evaluate i g else g)
    (fun g i => by split <;> [exact .inl rfl; exact .inr rfl]) _

/-- The offers of some evaluations and the stalled-lock pass that follows them (R13). -/
theorem foldl_stalledPass_offersTaken (locks : List LockIndex) :
    ∃ new, offersTaken new h (stalledPass (locks.foldl (fun g i => evaluate i g) h)) := by
  obtain ⟨a, ha⟩ := foldl_offersTaken h (fun g i => evaluate i g) (fun _ _ => .inl rfl) locks
  obtain ⟨b, hb⟩ := stalledPass_offersTaken (locks.foldl (fun g i => evaluate i g) h)
  exact ⟨_, offersTaken_append ha hb⟩

/-- The offers of the evaluations that follow a claim (R9, R13). -/
theorem evaluateChanged_offersTaken (touched : List LockIndex) :
    ∃ new, offersTaken new h (evaluateChanged touched h) := by
  unfold evaluateChanged
  split
  · exact foldl_stalledPass_offersTaken h _
  · exact ⟨[], h.htu.stalled, rfl⟩

/-- The offers of the evaluations at the end of a purge (R21, step 3). -/
theorem evaluateTouched_offersTaken (touched : List LockIndex) :
    ∃ new, offersTaken new h (evaluateTouched touched h) := by
  unfold evaluateTouched
  split
  · exact foldl_stalledPass_offersTaken h _
  · exact ⟨[], h.htu.stalled, rfl⟩

end Sys2Proof.Machine
end

