-- ==== Sys2Proof/Laws/Purge.lean ====
section
/-! SUPPORT. What the refill from the backlog and the EVICT do at the end of a purge (R14, R21, R22). -/

namespace Sys2Proof.Machine

theorem refilled_of_empty (h : Hw) (hb : h.htu.backlog = []) : refilled h = h := by
  obtain ⟨_, lbc, htu, _, _, _, _⟩ := h
  cases lbc; cases htu
  simp_all [refilled]

theorem refilled_of_full (h : Hw) (hp : 8 ≤ h.htu.posted) : refilled h = h := by
  have h0 : 8 - h.htu.posted = 0 := by omega
  obtain ⟨_, lbc, htu, _, _, _, _⟩ := h
  cases lbc; cases htu
  simp_all [refilled]

theorem refill_of_empty (k : Nat) (h : Hw) (hb : h.htu.backlog = []) : refill k h = h := by
  induction k with
  | zero => rfl
  | succ k ih => simp [refill, refillOne, hb, ih]

/-- Posting the oldest offer first changes nothing in what the refill comes to. -/
theorem refilled_refillOne (h : Hw) (w : Waiter) (rest : List Waiter) (hb : h.htu.backlog = w :: rest)
    (hp : h.htu.posted < 8) : refilled (refillOne h) = refilled h := by
  obtain ⟨m, hm⟩ : ∃ m, 8 - h.htu.posted = m + 1 := ⟨7 - h.htu.posted, by omega⟩
  have hm' : 8 - (h.htu.posted + 1) = m := by omega
  obtain ⟨scu, lbc, htu, _, _, _, _⟩ := h
  cases lbc; cases htu
  simp only at hb hp hm hm'
  subst hb
  simp only [refilled, refillOne, placePriority, Hw.setHtu, Config.postedLimit, hp, if_true, hm, hm',
    List.take_succ_cons, List.drop_succ_cons, List.map_cons, List.length_cons, List.map_map, List.append_assoc,
    List.cons_append, List.nil_append]
  congr 2
  · congr 1
    funext e
    simp only [Function.comp, List.mem_cons, exists_eq_or_imp]
    by_cases h1 : isOfferTo w.index w.station w.slot e = true
    · simp only [h1, if_true, true_or]
      exact ite_self _
    · simp only [h1, if_false, false_or, Bool.false_eq_true]
  · omega

/-- The refill with fuel enough posts the offers that may be posted (R21, step 2). -/
theorem refill_eq_refilled (k : Nat) (h : Hw) (hk : 8 - h.htu.posted ≤ k) : refill k h = refilled h := by
  induction k generalizing h with
  | zero => exact (refilled_of_full h (by omega)).symm
  | succ k ih =>
    rcases hb : h.htu.backlog with _ | ⟨w, rest⟩
    · rw [refill_of_empty _ h hb, refilled_of_empty h hb]
    · by_cases hp : h.htu.posted < 8
      · rw [← refilled_refillOne h w rest hb hp]
        refine ih (refillOne h) ?_
        simp [refillOne, hb, hp, Config.postedLimit, placePriority, Hw.setHtu]
        omega
      · have h1 : refillOne h = h := by simp [refillOne, hb, Config.postedLimit, hp]
        rw [refill, h1]
        exact ih h (by omega)

@[simp] theorem refilled_scu (h : Hw) : (refilled h).scu = h.scu := rfl

@[simp] theorem evictQueued_scu (g : Purge) (h : Hw) : (evictQueued g h).scu = h.scu := by
  simp only [evictQueued]
  split <;> rfl

/-- The EVICT queued at the end of a purge (R22). -/
theorem queueEvict_eq_evictQueued (g : Purge) (h : Hw) : queueEvict g h = evictQueued g h := by
  simp [queueEvict, evictQueued, placePriority, isEvictOf]

/-- The end of a purge at a home that does not serve, but for what follows a purge of a rebuild expiry (R21). -/
theorem endPurge_of_not_serving (g : Purge) (h : Hw) (hs : h.home ≠ .serving) :
    endPurge g h = continueRebuild g (purgeClosed g h) := by
  have h1 : (refilled (evictQueued g h)).home ≠ .serving := by
    rw [Hw.home, refilled_scu, evictQueued_scu]
    exact hs
  rw [endPurge, queueEvict_eq_evictQueued,
    refill_eq_refilled Config.postedLimit (evictQueued g h) (by unfold Config.postedLimit; omega),
    evaluateTouched]
  dsimp only
  rw [if_neg]
  · rfl
  · exact h1

end Sys2Proof.Machine
end

