-- ==== Sys2Proof/Laws/Views.lean ====
section
/-! SUPPORT. The fields of the words the port shows: a field, read at its own place, holds the number or flag put
there, and nothing of it stands at any other place. -/

namespace Sys2Proof.Machine

/-- The bits of two words laid over each other. -/
theorem bits_or (a b : Word) (lo n : Nat) : bits (a ||| b) lo n = bits a lo n ||| bits b lo n := by
  ext i hi; simp

/-- A field read at its own place. -/
theorem bits_fieldAt {pos w n : Nat} (hw : pos + w ≤ 32) :
    bits (fieldAt pos n) pos w = BitVec.ofNat w n := by
  ext i hi
  have h1 : pos + i < 32 := by omega
  have h2 : ¬pos + i < pos := by omega
  have h3 : pos + i - pos = i := by omega
  simp [fieldAt, h1, h2, h3, ← BitVec.getLsbD_eq_getElem]
  rw [BitVec.getLsbD_ofNat, BitVec.getLsbD_ofNat]
  simp [hi, show i < 32 by omega]

/-- A field read above its place. -/
theorem bits_fieldAt_above {pos lo w n : Nat} (h : n < 2 ^ (lo - pos)) (hp : pos ≤ lo) :
    bits (fieldAt pos n) lo w = 0 := by
  ext i hi
  have h2 : ¬lo + i < pos := by omega
  have h3 : n < 2 ^ (lo + i - pos) :=
    Nat.lt_of_lt_of_le h (Nat.pow_le_pow_right (by omega) (by omega))
  simp [fieldAt, h2, BitVec.getLsbD_ofNat, Nat.testBit_lt_two_pow h3]

/-- A field read below its place. -/
theorem bits_fieldAt_below {pos lo w n : Nat} (h : lo + w ≤ pos) : bits (fieldAt pos n) lo w = 0 := by
  ext i hi
  have h2 : lo + i < pos := by omega
  simp [fieldAt, h2]

/-- One bit of a field. -/
theorem getLsbD_fieldAt (pos n i : Nat) :
    (fieldAt pos n).getLsbD i = (decide (i < 32) && decide (pos ≤ i) && n.testBit (i - pos)) := by
  rw [fieldAt, BitVec.getLsbD_shiftLeft, BitVec.getLsbD_ofNat]
  by_cases h1 : i < 32 <;> by_cases h2 : pos ≤ i
  · simp [h1, h2, show ¬i < pos by omega, show i - pos < 32 by omega]
  · simp [h2, show i < pos by omega]
  · simp [h1]
  · simp [h1]

/-- One bit of a flag. -/
theorem getLsbD_flagAt (pos i : Nat) (b : Bool) :
    (flagAt pos b).getLsbD i = (b && decide (i < 32) && decide (pos = i)) := by
  by_cases h : pos = i <;> cases b <;> simp [flagAt, BitVec.getLsbD_twoPow, h]

/-- The bits of a flag elsewhere. -/
theorem bits_flagAt {pos lo w : Nat} {b : Bool} (h : pos < lo ∨ lo + w ≤ pos) :
    bits (flagAt pos b) lo w = 0 := by
  ext i hi
  have h2 : ¬pos = lo + i := by omega
  simp only [BitVec.getElem_extractLsb', getLsbD_flagAt, h2]
  simp

/-- The mask of the lanes an access addresses holds the bits of those lanes, and no other (R167). -/
theorem getLsbD_laneMask (enables : BitVec 4) (lane : Fin 4) (i : Fin 8) :
    (laneMask enables).getLsbD (8 * lane.val + i.val) = enables.getLsbD lane.val := by
  revert lane i
  revert enables
  decide +kernel

end Sys2Proof.Machine
end

