-- ==== Sys2Proof/Tests/Slice0.lean ====
section
/-! SUPPORT. Tests: the well-formedness check refuses ill-formed terms, formats and tables of the spec on fixed
values, one-step tests from the worked sequences of chapter 10, and for each statement with hypotheses a
concrete state and operands that meet them. -/

namespace Sys2Proof.Tests

open Sys2Proof.Machine

set_option Elab.async false

/-! ### Small states -/

/-- A station with ID 2 and P = 5 ms in a state, with nothing in its tables. -/
def station (st : StationState) : State :=
  { hw :=
      { State.reset.hw with
        scu := { Scu.reset 2 1 with station := st, frozen := st ≠ .offline }
        mbu := if st = .offline then .reset else Mbu.reset.setMember 2 ⟨.self, none⟩ }
    pending := [] }

/-- The station ONLINE. -/
def on : State := station .online

/-- A lock homed at station 2, or at station 5. -/
def lockOf (own : Bool) : LockId := if own then 600 else 1300

/-- A slot's record replaced. -/
def slotIs (n : SlotId) (r : SlotRecord) (s : State) : State := { s with hw := s.hw.setSlot n r }

/-- The hold table replaced. -/
def holdsAre (t : List (Nat × Hold)) (s : State) : State := { s with hw := s.hw.setHolds t }

/-- The home's tables replaced. -/
def homeIs (t : Htu) (s : State) : State := { s with hw := { s.hw with htu := t } }

/-- The normal list replaced. -/
def normalIs (l : List Transaction) (s : State) : State :=
  { s with hw := { s.hw with lbc := { s.hw.lbc with normal := l } } }

/-- The open transaction replaced. -/
def recordIs (r : TxRecord) (s : State) : State := { s with hw := setRecord r s.hw }

/-- The flushing flag set. -/
def flushing (s : State) : State :=
  { s with hw := { s.hw with scu := { s.hw.scu with flushing := true } } }

/-- An exclusive ACQUIRE of a lock. -/
def acq (l : LockId) : Operation :=
  { op := .acquire, lock := l, mode := some .exclusive, tryFlag := false, waitLimit := 0 }

/-- A slot in a state with an operation. -/
def busy (st : SlotState) (o : Operation) : SlotRecord :=
  { SlotRecord.reset with state := st, operation := some o }

/-- A hold of slot 3, without a mark. -/
def hold (l : LockId) (st : HoldState) : Hold :=
  { lock := l, slot := 3, mode := .exclusive, state := st, mark := false }

/-- A hold table of `k` holds of slot 3, on locks 0 to `k - 1`. -/
def fullTable (k : Nat) : List (Nat × Hold) :=
  (List.range k).map fun i => (i, hold (Fin.ofNat 4096 i) .held)

/-- The record of a transaction won by station `w`, its words read. -/
def carried (w : StationId) (role : Role) (x : Transaction) (phase : BusPhase) : TxRecord :=
  { openedRecord w .normal (if role = .initiator then some x else none) with
    role, words := some (requestWord0 w x, requestWord1 x), phase }

/-- The record of a transaction at completion, with what its outcome is settled from. -/
def ending (w : StationId) (role : Role) (x : Transaction) (y : BusOutcome) : TxRecord :=
  let r := { carried w role x .completion with presence := some 0 }
  match y with
  | .void => { r with voidSeen := true }
  | .absent => { r with responded := some false }
  | .answered z => { r with responded := some true, response := some z }
  | .complete => { r with responded := some false }

/-- Lines with a few asserted. -/
def ldat (w : Word) : Lines := { idleLines with ldat := w, lpar := parityOf w }

/-- The state a command answers. -/
def after (c : Instr) (s : State) : State :=
  match exec c s with
  | .next t => t
  | .fault f => nomatch f
  | .refused _ => s

/-! ### Well-formedness -/

theorem test_wf_stationCode_refused : (Instr.stationCommandInvalid 4).wellFormed = false := by decide

theorem test_wf_stationCode : (Instr.stationCommandInvalid 5).wellFormed = true := by decide

theorem test_wf_slotCode_refused : (Instr.slotCommandInvalid 3 1).wellFormed = false := by decide

theorem test_wf_slotCode : (Instr.slotCommandInvalid 3 0).wellFormed = true := by decide

theorem test_wf_ignored_refused : (Instr.portWriteIgnored 129 15 1).wellFormed = false := by decide

theorem test_wf_ignored_narrow : (Instr.portWriteIgnored 129 7 1).wellFormed = true := by decide

theorem test_wf_ignored_readOnly : (Instr.portWriteIgnored 2 15 1).wellFormed = true := by decide

/-! ### The port window (R167, R168, R171) -/

theorem test_port_acquire :
    portWrite 12 15 (bits 0x04B00061#32 0 32) = .acquire 3 2 true 1200 := by decide

theorem test_port_cancel : portWrite 124 15 4 = .cancel 31 := by decide

theorem test_port_join : portWrite 129 15 1 = .join := by decide

theorem test_port_station_code_0 : portWrite 129 15 0 = .stationCommandInvalid 0 := by decide

theorem test_port_routes : portWrite 147 15 9 = .configurationWrite (.routes 3) 9 := by decide

theorem test_port_gap : portWrite 136 15 9 = .portWriteIgnored 136 15 9 := by decide

theorem test_no_table_word : decodeTableWord 32 1 = none := by decide

/-! ### Lock numbers, request and response words, parity (R1, R165, R166) -/

theorem test_lock_1300 : homeOf 1300 = 5 ∧ indexOf 1300 = 20 ∧ lockAt 5 20 = 1300 := by decide

theorem test_lock_ends : homeOf 4095 = 15 ∧ indexOf 4095 = 255 ∧ homeOf 0 = 0 ∧ indexOf 0 = 0 := by decide

/-- The example of 9.1: station 9, slot 2, ACQUIRE of lock 1100, EXCLUSIVE. -/
theorem test_word_example :
    requestWord0 9 { kind := .acquire, slot := 2, mode := .exclusive, lock := 1100 } = 0x0132244C#32
      ∧ parityOf 0x0132244C#32 = 1#2 ∧ responseWord .granted = 1#32 ∧ parityOf 1#32 = 1#2 := by
  decide +kernel

theorem test_grant_word1 :
    requestWord1 { kind := .grant, lock := 1300, target := 11, targetSlot := 3 } = 0x3B#32 := by
  decide

theorem test_kind_undefined : readRequest 0x0C000000#32 0#32 = none ∧ readRequest 0#32 0#32 = none := by
  decide +kernel

theorem test_response_conflict_to_acquire :
    readResponse .acquire (responseWord .conflict) = none
      ∧ readResponse .reassert (responseWord .conflict) = some .conflict := by decide +kernel

/-! ### Arbitration (R29) -/

/-- Pointer 5, lines 2 and 11: the search from 6 reaches 11 first; alone at the pointer, it wins last. -/
theorem test_rotation :
    winnerAfter 5 0x0804#16 = some 11 ∧ winnerAfter 11 0x0024#16 = some 2
      ∧ winnerAfter 2 0x0024#16 = some 5 ∧ winnerAfter 5 0x0020#16 = some 5
      ∧ winnerAfter 5 0#16 = none := by decide +kernel

/-! ### Backoff (R84), queue words (R170), views (R169, R172, R173) -/

theorem test_backoff_delay :
    backoffDelay (Scu.reset 2 1) 0 = 72 ∧ backoffDelay (Scu.reset 2 1) 3 = 200 := by decide

theorem test_result_word :
    entryWord on.hw (.result 3 .acquire 1300 (some .exclusive) .acquired .none) = 0x00A8A48D#32 := by
  decide +kernel

theorem test_event_word :
    eventWord { EventSet.empty with online := true, peerJoined := some 11 } = 0x0000B02B#32 := by
  decide +kernel

theorem test_default_config :
    configRead .station State.reset.hw = 0x00380403#32 ∧ configRead (.routes 0) State.reset.hw = 0#32 := by
  decide +kernel

theorem test_status_0_online : stationStatus 0 on.hw = 0x0007A414#32 := by decide +kernel

/-! ### One step each, from the worked sequences (chapter 10) -/

/-- 10.3: the JOIN of a first station, its presence set empty: ONLINE, and no JOINED. -/
theorem test_first_join :
    (after (.completion idleLines false)
        (recordIs (ending 2 .initiator { kind := .join } .complete) (station .joining))).hw.scu.station = .online
      ∧ (after (.completion idleLines false)
        (recordIs (ending 2 .initiator { kind := .join } .complete) (station .joining))).hw.cqu.events =
          { EventSet.empty with online := true } := by decide +kernel

/-- Home 2, index 18: an EXCLUSIVE holder and two waiters. -/
def home2 : Htu :=
  { Htu.reset with
    holders :=
      [{ index := 18, station := 5, slot := 0, mode := .exclusive, state := .held, posted := none }]
    waiters :=
      [{ index := 18, station := 11, slot := 3, mode := .shared },
        { index := 18, station := 5, slot := 6, mode := .shared }] }

/-- 10.4, step 8: a RELEASE applied at completion offers a shared batch by two GRANTs. -/
theorem test_shared_batch :
    ((endEngagement
        (applyDecision
          (some
            { request := { kind := .release, station := 5, slot := 0, index := 18, mode := .shared
                           tryFlag := false, endFlag := false }
              response := .done, changes := { dropHolders := home2.holders } }))
        (homeIs { home2 with engaged := .transaction } on).hw).lbc.priority.map
        fun x => (x.kind, x.target, x.targetSlot, x.lock)) =
      [(.grant, 11, 3, 530), (.grant, 5, 6, 530)] := by decide +kernel

/-- 10.5, order 2: an expiry while ACCEPT is in flight records the cause, and the GRANT's completion ends the
slot ACQUIRED. -/
theorem test_timeout_race :
    ((settleAnswer false
        (requestCancel 3 .timeout
          { (slotIs 3 (busy .waiting (acq 1300)) (holdsAre [(0, hold 1300 .reserved)] on)).hw with
            rqt :=
              { (slotIs 3 (busy .waiting (acq 1300)) (holdsAre [(0, hold 1300 .reserved)] on)).hw.rqt with
                answer := some ⟨3, 1300, .exclusive, true, false, false⟩ } })).cqu.queue) =
      [.result 3 .acquire 1300 (some .exclusive) .acquired .none] := by decide +kernel

/-- R174: a new entry goes to the lowest free position. -/
theorem test_lowest_position :
    insertHold (hold 9 .held) [(0, hold 7 .held), (2, hold 8 .held)] =
      [(0, hold 7 .held), (1, hold 9 .held), (2, hold 8 .held)] := by decide +kernel

/-- R109: a mode change from PULSE to LEVEL ends the pulse. -/
theorem test_mode_change :
    (Cqu.changeModes #v[.pulse, .level, .level, .level] #v[.level, .level, .level, .level]
      { Cqu.reset with lines := #v[⟨3, .high⟩, ⟨0, .idle⟩, ⟨0, .idle⟩, ⟨0, .idle⟩] }).lines.get 0
        = ⟨0, .idle⟩ := by decide +kernel

/-- R86: a CANCEL that a removal did not find ends the slot at its completion, voided or not (log 28). -/
theorem test_cancel_not_found :
    let s := (slotIs 3 { busy .cancelling (acq 1300) with cause := some .timeout } on).hw
    let t := slotVoid { kind := .cancel, slot := 3, lock := 1300 } (failWaits 5 s)
    (t.slot 3).state = .done ∧ t.lbc.normal = []
      ∧ t.cqu.queue = [.result 3 .acquire 1300 (some .exclusive) .timedOut .none] := by decide +kernel

/-- R121, expiry first: the purge cause waits behind the engaged home, and the peer is PRESENT again at the
completion. -/
theorem test_expiry_first :
    let r := ending 5 .responder { kind := .acquire, slot := 1, mode := .exclusive, lock := 600 }
      (.answered .granted)
    let s := recordIs r { on with
      hw := { on.hw with
        htu := { Htu.reset with engaged := .transaction }
        mbu := on.hw.mbu.setMember 5 ⟨.present, some 15000⟩ } }
    let t := after (.silenceTimerExpiry 5 false) s
    t.hw.htu.claims = [.purgeCause 5 true] ∧ t.hw.mbu.member 5 = ⟨.lost, none⟩
      ∧ (after (.completion idleLines false) t).hw.mbu.member 5 = ⟨.present, some 0⟩
      ∧ (after (.completion idleLines false) t).hw.htu.purge.isSome = true := by decide +kernel

/-! ### What meets the hypotheses of each statement -/

theorem witness_IdleTickAdvancesTimers :
    ∃ s : State, s.pending = [] ∧ s.hw.scu.listenTimer = some 1 ∧ s.hw.htu.rebuildTimer = some 1
      ∧ s.hw.mbu.beaconTimer = some 1 ∧ (s.hw.rqt.slot 3).waitTimer = some 1
      ∧ (s.hw.rqt.slot 4).backoffTimer = some 1
      ∧ (s.hw.mbu.member 5).timer = some (lossLimit s.hw - 1) ∧ silenceHeld 5 s.hw = false :=
  ⟨{ hw :=
      { (slotIs 4 { busy .backoff (acq 7) with backoffTimer := some 1 }
          (slotIs 3 { busy .waiting (acq 9) with waitTimer := some 1 } on)).hw with
        scu := { on.hw.scu with listenTimer := some 1 }
        htu := { Htu.reset with rebuildTimer := some 1 }
        mbu := { (Mbu.reset.setMember 5 ⟨.present, some 14999⟩) with beaconTimer := some 1 } }
     pending := [] }, by decide +kernel⟩

/-- A pulse in its asserted part, and one in its gap. -/
theorem witness_IdleTickAdvancesTimers_pulses :
    ∀ ph ∈ [PulsePhase.high, .gap],
      let s := { on with hw := { on.hw with cqu := { on.hw.cqu with lines := on.hw.cqu.lines.set 0 ⟨2, ph⟩ } } }
      s.pending = [] ∧ (s.hw.cqu.lines.get 0).phase = ph := by decide +kernel

theorem witness_PowerOnResetSamplesStraps :
    exec .join State.reset = .next (after .join State.reset)
      ∧ ∀ id bp, (Instr.join ≠ .powerOnReset id bp ∧ Instr.join ≠ .porNRelease id bp) :=
  ⟨rfl, fun _ _ => ⟨nofun, nofun⟩⟩

theorem witness_ResetPins :
    (after (.powerOnReset 3 1) on).hw.port.porAsserted = true ∧ on.hw.port.porAsserted = false := by
  decide +kernel

/-- Taken and refused station commands: each side of each clause. -/
theorem witness_StationCommandsByState :
    State.reset.hw.port.porAsserted = false ∧ State.reset.hw.scu.station = .offline
      ∧ State.reset.hw.port.srstAsserted = false
      ∧ (after .stationReset on).hw.port.srstAsserted = true
      ∧ (after .stationReset on).hw.scu.station = .offline
      ∧ on.hw.scu.station = .online ∧ on.hw.scu.flushing = false
      ∧ (station .rebuilding).hw.scu.station = .rebuilding
      ∧ (flushing on).hw.scu.flushing = true ∧ (flushing on).hw.port.porAsserted = false := by
  decide +kernel

theorem witness_JoinStartsListening :
    (station .offline).hw.port.porAsserted = false ∧ (station .offline).hw.port.srstAsserted = false
      ∧ (station .offline).hw.scu.station = .offline := by decide +kernel

theorem witness_LeaveStartsLeaving :
    on.hw.port.porAsserted = false ∧ on.hw.scu.station = .online ∧ on.hw.scu.flushing = false
      ∧ (flushing (station .rebuilding)).hw.scu.station = .rebuilding
      ∧ (flushing (station .rebuilding)).hw.scu.flushing = true
      ∧ (flushing (station .rebuilding)).hw.port.porAsserted = false := by decide +kernel

theorem witness_FlushStart :
    ¬(((station .joining).hw.scu.station = .rebuilding ∨ (station .joining).hw.scu.station = .online)
        ∧ (station .joining).hw.scu.flushing = false)
      ∧ on.hw.scu.station = .online ∧ on.hw.scu.flushing = false ∧ on.hw.port.porAsserted = false
      ∧ ((slotIs 3 (busy .waiting (acq 9)) on).hw.rqt.slot 3).state ≠ .idle
      ∧ ((slotIs 3 (busy .waiting (acq 9)) on).hw.rqt.slot 4).state = .idle := by decide +kernel

/-- The fields at their ends: modes 0 and 3, locks 4095 and 4096; a slot for each clause. -/
theorem witness_SlotCommandChecks :
    modeField 0 = none ∧ modeField 3 = none ∧ modeField 1 = some .shared
      ∧ modeField 2 = some .exclusive ∧ lockField 4095 = some 4095 ∧ lockField 4096 = none
      ∧ on.hw.port.porAsserted = false ∧ slotsReady on ∧ ¬slotsReady State.reset
      ∧ ¬slotsReady (flushing on) ∧ (on.hw.rqt.slot 3).state = .idle
      ∧ ((slotIs 3 (busy .onBus (acq 9)) on).hw.rqt.slot 3).hasOp .acquire = true
      ∧ ((slotIs 3 (busy .onBus (acq 9)) on).hw.rqt.slot 3).state = .onBus
      ∧ ((slotIs 3 (busy .onBus (acq 9)) on).hw.rqt.slot 3).cause = none
      ∧ slotsReady (slotIs 3 (busy .onBus (acq 9)) on) := by decide +kernel

/-- One free entry, and none, in the hold table; a held and a revoked entry. -/
theorem witness_AcquireTaken :
    modeField 2 = some .exclusive ∧ lockField 1300 = some 1300
      ∧ (∀ t ∈ [[(0, hold 1300 .held)], [(0, hold 1300 .revoked)], fullTable 127, fullTable 128],
          slotsReady (holdsAre t on) ∧ ((holdsAre t on).hw.rqt.slot 3).state = .idle)
      ∧ (∀ st ∈ [HoldState.held, .revoked],
          findHold 3 1300 (holdsAre [(0, hold 1300 st)] on).hw.rqt.holds = some (hold 1300 st))
      ∧ findHold 3 1300 (holdsAre (fullTable 128) on).hw.rqt.holds = none
      ∧ (holdsAre (fullTable 128) on).hw.rqt.holds.length = 128
      ∧ findHold 3 1300 (holdsAre (fullTable 127) on).hw.rqt.holds = none
      ∧ (holdsAre (fullTable 127) on).hw.rqt.holds.length = 127 := by decide +kernel

/-- No entry, a held one and a revoked one, on a lock homed here (600) and elsewhere (1300). -/
theorem witness_ReleaseTaken :
    slotsReady on ∧ (on.hw.rqt.slot 3).state = .idle ∧ lockField 600 = some 600
      ∧ findHold 3 600 on.hw.rqt.holds = none
      ∧ (∀ b : Bool, ∀ st ∈ [HoldState.held, .revoked],
          findHold 3 (lockOf b) (holdsAre [(0, hold (lockOf b) st)] on).hw.rqt.holds
              = some (hold (lockOf b) st)
            ∧ slotsReady (holdsAre [(0, hold (lockOf b) st)] on))
      ∧ homeOf (lockOf true) = on.hw.id ∧ homeOf (lockOf false) ≠ on.hw.id := by decide +kernel

theorem witness_DowngradeTaken :
    slotsReady (holdsAre [(0, { hold 600 .held with mode := .shared })] on)
      ∧ findHold 3 600 (holdsAre [(0, { hold 600 .held with mode := .shared })] on).hw.rqt.holds
          = some { hold 600 .held with mode := .shared }
      ∧ findHold 3 600 (holdsAre [(0, hold 600 .held)] on).hw.rqt.holds = some (hold 600 .held)
      ∧ (hold 600 .held).mode = .exclusive
      ∧ findHold 3 600 (holdsAre [(0, hold 600 .revoked)] on).hw.rqt.holds = some (hold 600 .revoked) := by
  decide +kernel

/-- A slot for each row of R79 and R89. -/
def cancelCase (st : SlotState) (l : LockId) : State :=
  slotIs 3 { busy st (acq l) with waitTimer := some 4000 } on

/-- An ACCEPT of slot 3 in flight. -/
def accepting (s : State) : State :=
  { s with
    hw := { s.hw with
      rqt := { s.hw.rqt with answer := some ⟨3, 1300, .exclusive, true, false, false⟩ } } }

theorem witness_CancelTaken :
    (∀ st ∈ [SlotState.queuedOut, .onBus, .backoff, .waiting], ∀ b : Bool,
        slotsReady (cancelCase st (lockOf b))
          ∧ ((cancelCase st (lockOf b)).hw.rqt.slot 3).operation = some (acq (lockOf b))
          ∧ ((cancelCase st (lockOf b)).hw.rqt.slot 3).state = st
          ∧ ((cancelCase st (lockOf b)).hw.rqt.slot 3).cause = none)
      ∧ slotEntryListed 3 (cancelCase .queuedOut 1300).hw = false
      ∧ slotEntryListed 3 (normalIs [slotTransaction .acquire 3 (acq 1300)]
          (cancelCase .queuedOut 1300)).hw = true
      ∧ slotsReady (normalIs [slotTransaction .acquire 3 (acq 1300)] (cancelCase .queuedOut 1300))
      ∧ slotsReady (accepting (cancelCase .waiting 1300))
      ∧ acceptInFlight 3 (cancelCase .waiting 1300).hw = false
      ∧ acceptInFlight 3 (accepting (cancelCase .waiting 1300)).hw = true := by decide +kernel

theorem witness_SlotParameterStored :
    on.hw.port.porAsserted = false ∧ registerAt 13 = .slotParameter 3 ∧ registerAt 128 = .queueHead := by
  decide +kernel

/-- A read of a slot parameter in each of its lanes, and a partial read of the queue head. -/
theorem test_partial_read :
    let h := (after (.slotParameterWrite 3 0x1234#32) on).hw
    portRead 13 15 h = 0x1234 ∧ portRead 13 1 h = 0x34 ∧ portRead 13 2 h = 0x1200 ∧ portRead 13 12 h = 0
      ∧ portRead 128 7 { h with cqu := { h.cqu with queue := [.notice 3] } } = 0 := by decide +kernel

/-- Counts at the ends of their ranges: 15 attempts, 65535 ms, 128 revoked holds, and empty tables. -/
theorem witness_SlotParameterStored_ranges :
    let r := { busy .waiting (acq 1300) with attempts := 15, waitTimer := some 65535000 }
    let s := slotIs 3 r (holdsAre ((List.range 128).map fun i => (i, hold (Fin.ofNat 4096 i) .revoked)) on)
    (s.hw.rqt.slot 3).attempts ≤ 15 ∧ revokedCount 3 s.hw.rqt.holds = 128
      ∧ (((s.hw.rqt.slot 3).waitTimer.map fun k => (k + 999) / 1000).getD 0) = 65535
      ∧ s.hw.lbc.normal.length ≤ 34 ∧ s.hw.lbc.priority.length ≤ 28 ∧ s.hw.cqu.queue.length ≤ 65
      ∧ s.hw.rqt.outstanding ≤ 4 ∧ s.hw.rqt.homes.length ≤ 15 ∧ s.hw.htu.posted ≤ 8
      ∧ s.hw.htu.holders.length ≤ 512 ∧ s.hw.htu.waiters.length ≤ 192 ∧ s.hw.htu.backlog.length ≤ 512
      ∧ s.hw.htu.stalled.length ≤ 192 ∧ s.hw.rqt.answer = none := by decide +kernel

/-- A queue with each kind of entry at its head, and a LEVEL line. -/
def queueIs (q : List QueueEntry) (s : State) : State :=
  { s with hw := { s.hw with cqu := { s.hw.cqu with queue := q } } }

theorem witness_QueueHeadRead :
    (7 : BitVec 4) ≠ 15 ∧ (after (.powerOnReset 3 1) on).hw.port.porAsserted = true
      ∧ on.hw.port.porAsserted = false ∧ on.hw.cqu.queue = []
      ∧ (slotIs 3 (busy .done (acq 1300))
          (queueIs [.result 3 .acquire 1300 (some .exclusive) .acquired .none] on)).hw.cqu.queue =
            .result 3 .acquire 1300 (some .exclusive) .acquired .none :: []
      ∧ ((slotIs 3 (busy .done (acq 1300))
          (queueIs [.result 3 .acquire 1300 (some .exclusive) .acquired .none] on)).hw.rqt.slot 3).state = .done
      ∧ (queueIs [.notice 3] on).hw.cqu.queue = .notice 3 :: []
      ∧ (queueIs [.station] on).hw.cqu.queue = .station :: []
      ∧ on.hw.scu.lineModes.get 0 = .level := by decide +kernel

/-- Fields at the ends of their ranges, in and out of range. -/
theorem witness_ConfigurationWrite :
    on.hw.scu.frozen = true ∧ State.reset.hw.scu.frozen = false
      ∧ State.reset.hw.port.porAsserted = false
      ∧ 5 ≤ (bits 0x50000000#32 (4 * 7) 3).toNat
      ∧ (∀ j : Fin 8, (bits 0x44444444#32 (4 * j.val) 3).toNat < 5)
      ∧ 5 ≤ (bits 0x00380405#32 0 3).toNat ∧ bits 0x00380003#32 8 6 = 0 ∧ bits 0x00300403#32 16 4 = 0
      ∧ (bits 0x00180403#32 20 3).toNat < 2
      ∧ (bits 0x00210104#32 0 3).toNat < 5 ∧ bits 0x00210104#32 8 6 ≠ 0 ∧ bits 0x00210104#32 16 4 ≠ 0
      ∧ 2 ≤ (bits 0x00210104#32 20 3).toNat := by decide +kernel

theorem witness_IgnoredWrites :
    (7 : BitVec 4) ≠ 15 ∧ (registerAt 128).writable = false ∧ (registerAt 1023).writable = false
      ∧ (after (.powerOnReset 3 1) on).hw.port.porAsserted = true := by decide +kernel

/-- A slot, a parameter and a configuration write while POR_N is asserted. -/
theorem test_por_ignores :
    let s := after (.powerOnReset 3 1) on
    ∀ c ∈ [Instr.acquire 3 2 false 600, .release 3 8191, .slotParameterWrite 3 7,
        .configurationWrite .station 0x00210104], after c s = s := by decide +kernel

/-- The lists with an own GRANT, an EVICT and a slot's ACQUIRE; a purge may be in progress. -/
def listing (purging : Bool) : State :=
  { slotIs 3 (busy .queuedOut (acq 1300)) on with
    hw := { (slotIs 3 (busy .queuedOut (acq 1300)) on).hw with
      htu := { Htu.reset with
        purge := if purging then some ⟨5, true, 1, [], false, []⟩ else none
        engaged := if purging then .purge else .free }
      lbc := { Lbc.reset with
        priority := [{ kind := .grant, lock := 530, target := 11 }, { kind := .evict, target := 5 }]
        normal := [slotTransaction .acquire 3 (acq 1300)] } } }

/-- Nobody, another station and this one, in each round; an own GRANT held back and one that goes; a slot
QUEUED_OUT. -/
theorem witness_ArbitrationOpensRecord :
    State.reset.hw.scu.station.observes = false ∧ on.hw.scu.station.observes = true
      ∧ on.hw.lbc.record = none ∧ on.hw.scu.station.present = true ∧ on.hw.lbc.priority = []
      ∧ winnerAfter on.hw.lbc.pointer 0 = none ∧ winnerAfter on.hw.lbc.pointer 0x20 = some 5
      ∧ winnerAfter on.hw.lbc.pointer (0 ||| stationBit on.hw.id) = some on.hw.id
      ∧ (recordIs (openedRecord 5 .normal none) on).hw.lbc.record.isSome = true
      ∧ (∀ b : Bool, (listing b).hw.lbc.record = none ∧ (listing b).hw.scu.station.observes = true
          ∧ ((listing b).hw.lbc.priority.find? fun y =>
              ¬(y.kind = .grant ∧ (listing b).hw.htu.purge.isSome = true)) =
            some (if b then { kind := .evict, target := 5 } else { kind := .grant, lock := 530, target := 11 })
          ∧ (listing b).hw.lbc.normal.head? = some (slotTransaction .acquire 3 (acq 1300))
          ∧ ((listing b).hw.rqt.slot 3).state = .queuedOut) := by decide +kernel

/-- A self-homed RELEASE of slot 3. -/
def selfRelease : Request :=
  { kind := .release, station := 2, slot := 3, index := 88, mode := .shared, tryFlag := false
    endFlag := false }

/-- The home with claims that have reached it while it was free. -/
def reached (cs : List Claim) (t : Htu) (s : State) : State := homeIs { t with arriving := cs } s

/-- A request that has reached the free home, and the own GRANT that wins behind it. -/
theorem witness_ArbitrationOpensRecord_arrivals :
    let s := reached [.selfRequest selfRelease] Htu.reset (listing false)
    s.hw.scu.station.observes = true ∧ s.hw.lbc.record = none ∧ expiryOnce s.hw.htu
      ∧ .lockTransaction ∉ s.hw.htu.arriving ∧ listing false = reached [] Htu.reset (listing false)
      ∧ s.hw.htu.engaged = .free ∧ s.hw.htu.arriving = [.selfRequest selfRelease] := by
  unfold expiryOnce
  decide +kernel

/-- A request that has reached the free home is taken before the own GRANT engages it, and a purge cause before any
GRANT may go (R28). -/
theorem test_arbitration_settles :
    let s (c : Claim) := reached [c] Htu.reset (listing false)
    let t := after (.arbitration 0 0) (s (.selfRequest selfRelease))
    t.hw.htu.engaged = .grant ∧ t.hw.htu.claims = [] ∧ t.hw.rqt.responses = [⟨3, .release, .stale⟩]
      ∧ ((after (.arbitration 0 0) (s (.purgeCause 5 true))).hw.lbc.record.bind (·.entry)).map (·.kind) =
          some .evict := by decide +kernel

theorem witness_ResponseWordsAndParity :
    Response.refused .rebuilding ∈ responsesOf .downgrade
      ∧ readResponse .downgrade 0x34#32 = some (.refused .rebuilding) := by decide +kernel

/-- An ACQUIRE of lock 600, homed here, from station 5. -/
def acquire600 : Transaction := { kind := .acquire, slot := 1, mode := .exclusive, lock := 600 }

/-- A GRANT to slot 3 here, from home 5. -/
def grant1300 : Transaction :=
  { kind := .grant, mode := .exclusive, lock := 1300, target := 2, targetSlot := 3 }

theorem witness_RequestPhaseReadsWords :
    (let r := { carried 2 .initiator grant1300 .request with words := none }
     (recordIs r on).hw.lbc.record = some r ∧ r.phase = .request ∧ r.role = .initiator
        ∧ r.winner = on.hw.id ∧ r.entry = some grant1300 ∧ r.error = false ∧ r.voidSeen = false)
      ∧ (recordIs (openedRecord 5 .normal none) on).hw.lbc.record = some (openedRecord 5 .normal none)
      ∧ (openedRecord 5 .normal none).phase = .request := by decide +kernel

/-- The roles and phases in which a station drives: the winner to the end of the response phase, an observer its
presence bit only, the responder with LRSP and LSTALL, a JOINING station as the winner only, and an error found. -/
theorem witness_RequestPhaseReadsWords_driven :
    on.hw.lbc.record = none
      ∧ (∀ ph ∈ [BusPhase.request, .observation, .observing, .response, .completion],
          ∀ role ∈ [Role.initiator, .responder, .observer], ∀ st ∈ [StationState.listening, .joining, .online],
          let r := { carried 5 role grant1300 ph with error := true }
          (recordIs r (station st)).hw.lbc.record = some r ∧ r.error = true)
      ∧ (openedRecord 5 .normal none).role = .observer ∧ (openedRecord 5 .normal none).entry = none
      ∧ (openedRecord 5 .normal none).lrsp = false ∧ (openedRecord 5 .normal none).lstall = false := by
  decide +kernel

/-- What each role drives with an error found: the presence bit, and LVOID where it may be asserted. -/
theorem test_driven_lines :
    let h (st : StationState) (role : Role) (ph : BusPhase) :=
      (recordIs { carried 5 role grant1300 ph with error := true, lstall := true } (station st)).hw
    drivenLines (h .online .observer .observing) =
        { idleLines with ldat := 4, lvoid := true, lstall := true }
      ∧ drivenLines (h .joining .observer .completion) = idleLines
      ∧ drivenLines (h .joining .initiator .completion) = { idleLines with lvoid := true }
      ∧ (drivenLines (h .online .initiator .response)).larb = 4 := by decide +kernel

/-- The home, the target and an onlooker. -/
theorem witness_ObservationStart :
    (∀ x ∈ [acquire600, grant1300, { kind := .beacon }],
        (recordIs (carried 5 .observer x .observation) on).hw.lbc.record
            = some (carried 5 .observer x .observation)
          ∧ recordRequest (carried 5 .observer x .observation) = some x
          ∧ (carried 5 .observer x .observation).error = false
          ∧ (carried 5 .observer x .observation).role ≠ .initiator)
      ∧ on.hw.scu.station.present = true ∧ acquire600.kind.isLock = true ∧ homeOf acquire600.lock = on.hw.id
      ∧ grant1300.kind = .grant ∧ grant1300.target = on.hw.id := by decide +kernel

/-- A home that a self-homed request has reached while free, and one engaged by a purge. -/
theorem witness_ObservationStart_homes :
    expiryOnce (reached [.selfRequest selfRelease] Htu.reset on).hw.htu
      ∧ .lockTransaction ∉ (reached [.selfRequest selfRelease] Htu.reset on).hw.htu.arriving
      ∧ on.hw.htu.arriving = [] ∧ (homeIs { Htu.reset with engaged := .purge } on).hw.htu.engaged ≠ .free
      ∧ expiryOnce (homeIs { Htu.reset with engaged := .purge } on).hw.htu := by
  unfold expiryOnce
  decide +kernel

/-- The request is taken first, and then the transaction engages the home without a stall; at an engaged home the
transaction waits, and LSTALL is asserted. Only what waits is counted. -/
theorem test_observation_settles :
    let s (t : Htu) := recordIs (carried 5 .observer acquire600 .observation) (homeIs t on)
    let t := after (.observationPhase idleLines) (s { Htu.reset with arriving := [.selfRequest selfRelease] })
    let u := after (.observationPhase idleLines) (s { Htu.reset with engaged := .purge })
    t.hw.htu.engaged = .transaction ∧ t.hw.htu.arriving = [] ∧ t.hw.rqt.responses ≠ []
      ∧ t.hw.lbc.record.map (·.lstall) = some false
      ∧ u.hw.htu.claims = [.lockTransaction] ∧ u.hw.lbc.record.map (·.lstall) = some true
      ∧ bits (registerWord (.homeSummary 0) u.hw) 16 8 = 1
      ∧ bits (registerWord (.homeSummary 0) (reached [.selfRequest selfRelease] Htu.reset on).hw) 16 8 = 0 := by
  decide +kernel

theorem witness_ObservationClose :
    (recordIs (carried 5 .observer acquire600 .observing) on).hw.lbc.record
        = some (carried 5 .observer acquire600 .observing)
      ∧ (carried 5 .observer acquire600 .observing).phase = .observing
      ∧ recordRequest (carried 5 .observer acquire600 .observing) = some acquire600
      ∧ (carried 5 .observer acquire600 .observing).lstall = false ∧ idleLines.lstall = false
      ∧ { idleLines with lstall := true }.lstall = true := by decide +kernel

/-- LVOID read, the winner's line released and held, and held by this station alone as the winner. -/
theorem witness_ObservationClose_void :
    { idleLines with lvoid := true }.lvoid = true ∧ idleLines.lvoid = false
      ∧ larbReleased on.hw.id (carried 5 .observer acquire600 .observing) idleLines
      ∧ ¬larbReleased on.hw.id (carried 5 .observer acquire600 .observing) { idleLines with larb := 0x20 }
      ∧ ¬larbReleased on.hw.id (carried 2 .initiator grant1300 .observing) idleLines := by
  unfold larbReleased
  decide +kernel

theorem witness_GrantAnswered :
    (∀ st ∈ [SlotState.waiting, .cancelling, .done],
        let r := carried 5 .responder grant1300 .observing
        let s := recordIs r (slotIs 3 (busy st (acq 1300)) on)
        s.hw.lbc.record = some r ∧ r.phase = .observing ∧ r.role = .responder
          ∧ recordRequest r = some grant1300 ∧ r.lstall = false
          ∧ s.hw.scu.flushing = false ∧ (s.hw.rqt.slot 3).state = st
          ∧ (s.hw.rqt.slot 3).operation = some (acq 1300))
      ∧ idleLines.lstall = false ∧ grant1300.targetSlot = 3 ∧ grant1300.lock = (acq 1300).lock
      ∧ some grant1300.mode = (acq 1300).mode := by decide +kernel

/-- The answer in flight replaced, with slot 3 in a state. -/
def answering (a : Answer) (r : SlotRecord) (y : BusOutcome) : State :=
  let s := recordIs (ending 5 .responder grant1300 y) (slotIs 3 r on)
  { s with hw := { s.hw with rqt := { s.hw.rqt with answer := some a } } }

/-- Slot 3 CANCELLING for cause TIMEOUT. -/
def cancellingOn (l : LockId) : SlotRecord := { busy .cancelling (acq l) with cause := some .timeout }

/-- ACCEPT of a WAITING slot; a DECLINE that ends a cancel, its CANCEL listed or not, or self-homed; a DECLINE that
ends none; and a flush. -/
theorem witness_GrantAnswered_completion :
    (let r := ending 5 .responder grant1300 (.answered .decline)
     (¬voided r idleLines ∧ r.role = .responder ∧ r.winner ≠ on.hw.id ∧ recordRequest r = some grant1300
        ∧ r.responded = some true ∧ r.response = some .decline)
      ∧ (∀ b c : Bool, ∀ q ∈ [busy .waiting (acq 1300), cancellingOn 1300, cancellingOn 600],
          let s := answering ⟨3, q.operation.elim 0 (·.lock), .exclusive, b, c, false⟩ q (.answered .decline)
          atCompletion s r ∧ s.hw.rqt.answer =
              some ⟨3, q.operation.elim 0 (·.lock), .exclusive, b, c, false⟩
            ∧ s.hw.rqt.slot 3 = q ∧ s.hw.scu.flushing = false ∧ slotEntryListed 3 s.hw = false))
      ∧ slotEntryListed 3 (normalIs [{ kind := .cancel, slot := 3, lock := 1300 }] on).hw = true
      ∧ (flushing on).hw.scu.flushing = true ∧ homeOf (acq 600).lock = on.hw.id
      ∧ homeOf (acq 1300).lock ≠ on.hw.id := by
  unfold atCompletion
  decide +kernel

/-- A response read by an onlooker, and one driven by this home. -/
theorem witness_ResponseRead :
    (let r := carried 5 .observer acquire600 .response
      let o := { ldat (responseWord .queued) with larb := 0x20, lrsp := true }
      (recordIs r on).hw.lbc.record = some r ∧ r.phase = .response ∧ recordRequest r = some acquire600
        ∧ Response.queued ∈ responsesOf acquire600.kind ∧ r.role ≠ .responder ∧ r.lrsp = false
        ∧ o.ldat = responseWord .queued ∧ o.lpar = parityOf (responseWord .queued) ∧ o.lrsp = true
        ∧ o.lvoid = false ∧ o.larb.getLsbD r.winner.val = true ∧ r.error = false ∧ r.voidSeen = false)
      ∧ (let r := { carried 5 .responder acquire600 .response with lrsp := true }
        let o := { idleLines with larb := 0x20 }
        let s := recordIs r (homeIs
          { Htu.reset with
            decision := some
              { request := { kind := .acquire, station := 5, slot := 1, index := 88, mode := .exclusive
                             tryFlag := false, endFlag := false }
                response := .queued, changes := {} } } on)
        s.hw.lbc.record = some r ∧ r.role = .responder ∧ r.lrsp = true ∧ ownResponse s.hw = some .queued
          ∧ o.ldat = 0 ∧ o.lpar = 0 ∧ o.lvoid = false ∧ o.larb.getLsbD r.winner.val = true
          ∧ r.error = false ∧ r.voidSeen = false) := by decide +kernel

/-- Wrong parity, an undefined code, LRSP released, the winner's line released, and LVOID. -/
theorem witness_ResponseRead_errors :
    (let r := carried 5 .observer acquire600 .response
     r.role ≠ .responder ∧ r.role ≠ .initiator ∧ r.lrsp = false ∧ r.phase = .response
        ∧ recordRequest r = some acquire600 ∧ (recordIs r on).hw.lbc.record = some r)
      ∧ parityEven 1#32 0#2 = false ∧ readResponse .acquire 0xF#32 = none
      ∧ readResponse .acquire 5#32 = none ∧ idleLines.lrsp = false ∧ idleLines.larb.getLsbD 5 = false
      ∧ { idleLines with lvoid := true }.lvoid = true := by decide +kernel

theorem witness_OutcomePrecedence :
    (∀ y ∈ [BusOutcome.void, .absent, .answered .queued],
        recordRequest (ending 5 .observer acquire600 y) = some acquire600
          ∧ settle (ending 5 .observer acquire600 y) = y)
      ∧ settle (ending 5 .observer { kind := .purge } .complete) = .complete
      ∧ acquire600.kind.hasResponse = true ∧ Kind.purge.hasResponse = false := by decide +kernel

/-- The three ways a completion is voided: seen before, an error found, LVOID read at completion. -/
def voids (r : TxRecord) : List (TxRecord × Lines) :=
  [({ r with voidSeen := true }, idleLines), ({ r with error := true }, idleLines),
    (r, { idleLines with lvoid := true })]

/-- The unvoided completions that are a sighting and nothing more, at an observer and at the initiator. -/
theorem witness_VoidedCompletionDiscards_sightings :
    (∀ q ∈ [(({ kind := .beacon } : Transaction), BusOutcome.complete), (acquire600, .answered .queued),
          (acquire600, .absent), (grant1300, .answered .accept), ({ kind := .evict, target := 7 }, .complete),
          ({ kind := .evict, target := 2 }, .complete)],
        let r := ending 5 .observer q.1 q.2
        peerCompletion (recordIs r (station .listening)) r q.1 ∧ ¬voided r idleLines)
      ∧ (∀ k ∈ [Kind.beacon, .evict],
        let r := ending 2 .initiator { kind := k } .complete
        ownCompletion (recordIs r on) r { kind := k } idleLines ∧ ¬voided r idleLines) := by
  unfold peerCompletion ownCompletion atCompletion
  decide +kernel

/-- A BEACON of a peer and an own one, met while present: the timer from zero, and the mark. -/
theorem test_sightings :
    let t (w : StationId) (role : Role) := (after (.completion idleLines false)
      (recordIs (ending w role { kind := .beacon } .complete) on)).hw
    (t 5 .observer).mbu.member 5 = ⟨.present, some 0⟩ ∧ (t 2 .initiator).mbu.wonMark = true
      ∧ (t 2 .initiator).lbc.normal = [] ∧ (t 2 .initiator).lbc.record = none := by decide +kernel

theorem witness_VoidedCompletionDiscards :
    (∀ role ∈ [Role.observer, .responder], ∀ q ∈ voids (ending 5 role acquire600 (.answered .granted)),
        atCompletion (recordIs q.1 on) q.1 ∧ voided q.1 q.2 ∧ q.1.role ≠ .initiator
        ∧ q.1.winner ≠ on.hw.id ∧ recordRequest q.1 = some acquire600 ∧ outcomeAt q.1 q.2 = .void)
      ∧ on.hw.htu.claims = [] := by
  unfold atCompletion
  decide +kernel

/-- A voided GRANT at its target: no cancel and no failure, a failure held, a cancel held, and both; a flush. -/
theorem witness_VoidedCompletionDiscards_grant :
    (∀ b : Bool, ∀ c ∈ [none, some CancelCause.client],
        let q := { busy .waiting (acq 1300) with cause := c }
        let s := answering ⟨3, 1300, .exclusive, true, false, b⟩ q .void
        let r := ending 5 .responder grant1300 .void
        atCompletion s r ∧ voided r idleLines ∧ recordRequest r = some grant1300
          ∧ s.hw.htu.claims = [] ∧ s.hw.rqt.answer = some ⟨3, 1300, .exclusive, true, false, b⟩
          ∧ s.hw.rqt.slot 3 = q ∧ s.hw.scu.flushing = false)
      ∧ on.hw.rqt.answer = none ∧ homeOf (acq 1300).lock ≠ on.hw.id := by
  unfold atCompletion
  decide +kernel

/-- The own entries that return to the head of their list. -/
theorem witness_VoidedCompletionDiscards_own :
    ∀ k ∈ [Kind.beacon, .join, .leave, .purge, .evict, .grant],
      ∀ q ∈ voids (ending 2 .initiator { kind := k } .complete),
      ownCompletion (recordIs q.1 on) q.1 { kind := k } q.2 ∧ voided q.1 q.2
        ∧ (recordIs q.1 on).hw.htu.claims = [] := by
  unfold ownCompletion atCompletion
  decide +kernel

/-- Slot 3's ACQUIRE of lock 1300. -/
def x1300 : Transaction := slotTransaction .acquire 3 (acq 1300)

/-- Slot 3's own ACQUIRE, its slot aborted, voided and answered. -/
theorem witness_VoidedCompletionDiscards_aborted :
    ∀ q ∈ voids (ending 2 .initiator x1300 .void)
        ++ [(ending 2 .initiator x1300 (.answered .granted), idleLines)],
      let s := recordIs q.1 (slotIs 3 { busy .onBus (acq 1300) with aborted := true } (flushing on))
      ownCompletion s q.1 x1300 q.2 ∧ x1300.kind.isSlot = true
        ∧ (s.hw.rqt.slot x1300.slot).aborted = true := by
  unfold ownCompletion atCompletion
  decide +kernel

/-- The outcome of an aborted slot's entry is discarded: no entry goes back to the normal list, and no RESULT. -/
theorem test_aborted_discards :
    ∀ y ∈ [BusOutcome.void, .absent, .answered .granted],
      let t := after (.completion idleLines false) (recordIs (ending 2 .initiator x1300 y)
        (slotIs 3 { busy .onBus (acq 1300) with aborted := true } (flushing on)))
      t.hw.lbc = on.hw.lbc ∧ t.hw.cqu = on.hw.cqu ∧ t.hw.mbu.wonMark = true
        ∧ t.hw.rqt.slot 3 = { busy .onBus (acq 1300) with aborted := true } := by decide +kernel

/-- LVOID read in the completion phase, and an error found before it, keep the own JOIN. -/
theorem test_late_void :
    ∀ q ∈ voids (ending 2 .initiator { kind := .join } .complete),
      (after (.completion q.2 false) (recordIs q.1 (station .joining))).hw.lbc.normal = [{ kind := .join }]
        ∧ (after (.completion q.2 false) (recordIs q.1 (station .joining))).hw.scu.station = .joining := by
  decide +kernel

/-- The decision to make client (5, 1) a holder of index 88. -/
def grant88 : Decision :=
  { request := { kind := .acquire, station := 5, slot := 1, index := 88, mode := .exclusive
                 tryFlag := false, endFlag := false }
    response := .granted
    changes := { addHolder := some { index := 88, station := 5, slot := 1, mode := .exclusive
                                     state := .held, posted := none } } }

/-- The home with that decision standing. -/
def deciding : State :=
  recordIs (ending 5 .responder acquire600 (.answered .granted))
    (homeIs { Htu.reset with engaged := .transaction, decision := some grant88 } on)

theorem witness_DecisionAppliedAtCompletion :
    atCompletion deciding (ending 5 .responder acquire600 (.answered .granted))
      ∧ ¬voided (ending 5 .responder acquire600 (.answered .granted)) idleLines
      ∧ (ending 5 .responder acquire600 (.answered .granted)).winner ≠ deciding.hw.id
      ∧ recordRequest (ending 5 .responder acquire600 (.answered .granted)) = some acquire600
      ∧ acquire600.kind.isLock = true
      ∧ (ending 5 .responder acquire600 (.answered .granted)).responded = some true
      ∧ (ending 5 .responder acquire600 (.answered .granted)).response = some grant88.response
      ∧ deciding.hw.htu.decision = some grant88 ∧ deciding.hw.htu.waiters = []
      ∧ deciding.hw.htu.stalled = [] ∧ deciding.hw.htu.claims = [] := by
  unfold atCompletion
  decide +kernel

/-- The home with a decision of given changes, and given tables. -/
def applying (c : Changes) (t : Htu) (st : StationState) : State :=
  recordIs (ending 5 .responder acquire600 (.answered .granted))
    (homeIs { t with engaged := .transaction, decision := some { grant88 with changes := c } } (station st))

/-- A HELD and an OFFERED entry of client (5, 1), in the backlog or with its GRANT posted. -/
def offered88 (posted : Option Bool) : Holder :=
  { index := 88, station := 5, slot := 1, mode := .exclusive
    state := if posted.isSome then .offered else .held, posted }

/-- One state for each kind of change. -/
theorem witness_DecisionAppliedAtCompletion_changes :
    (∀ c ∈ [({} : Changes), { addWaiter := some ⟨18, 7, 0, .shared⟩ }, { dropHolders := [offered88 none] },
          { dropHolders := [offered88 (some false)] }, { dropHolders := [offered88 (some true)] },
          { share := some (offered88 none) }, { dropWaiters := [⟨18, 7, 0, .shared⟩] }, { unawait := some 5 }],
        let s := applying c { Htu.reset with awaited := 0x20 } .rebuilding
        let r := ending 5 .responder acquire600 (.answered .granted)
        atCompletion s r ∧ ¬voided r idleLines ∧ s.hw.htu.decision = some { grant88 with changes := c }
          ∧ r.response = some ({ grant88 with changes := c } : Decision).response ∧ s.hw.htu.stalled = []
          ∧ s.hw.htu.claims = [] ∧ s.hw.htu.waiters = [] ∧ s.hw.htu.backlog = []
          ∧ s.hw.scu.station = .rebuilding ∧ s.hw.htu.awaited.getLsbD 5 = true
          ∧ s.hw.htu.awaited &&& ~~~(BitVec.twoPow 16 5) = 0)
      ∧ (0x820 : BitVec 16) &&& ~~~(BitVec.twoPow 16 5) ≠ 0
      ∧ (applying { dropWaiters := [⟨18, 7, 0, .shared⟩] }
          { Htu.reset with waiters := [⟨18, 7, 0, .shared⟩] } .online).hw.htu.waiters = [⟨18, 7, 0, .shared⟩]
      ∧ (∃ e ∈ home2.holders, e.index = 18 ∧ ¬(Mode.shared = .shared ∧ e.mode = .shared))
      ∧ (let x : Transaction := { kind := .grant, mode := .exclusive, lock := 600, target := 5, targetSlot := 1 }
        x.kind = .grant ∧ x.target = 5 ∧ x.targetSlot = 1 ∧ x.lock = lockAt 2 88) := by
  unfold atCompletion
  decide +kernel

/-- The changes that take the client's OFFERED entry of lock 88, in each of its places, at a home with a waiter
behind it, a stalled lock and eight GRANTs posted. -/
theorem witness_DecisionAppliedAtCompletion_evaluated :
    ∀ a : Option Bool,
      let e : Holder := { offered88 a with state := .offered }
      let s := applying { dropHolders := [e] }
        { Htu.reset with
          holders := [e], waiters := [⟨88, 7, 0, .shared⟩, ⟨18, 7, 1, .shared⟩], stalled := [18], posted := 8 }
        .online
      let y : Transaction := { kind := .grant, mode := .exclusive, lock := 600, target := 5, targetSlot := 1 }
      let r := ending 5 .responder acquire600 (.answered .granted)
      atCompletion s r ∧ ¬voided r idleLines ∧ s.hw.htu.claims = [] ∧ s.hw.home = .serving
        ∧ [e].filter (·.state = .offered) = [e] ∧ s.hw.htu.purge = none ∧ s.hw.htu.posted = 8
        ∧ y.kind = .grant ∧ y.target = e.station ∧ y.targetSlot = e.slot ∧ y.lock = lockAt s.hw.id e.index
        ∧ s.hw.htu.decision = some { grant88 with changes := { dropHolders := [e] } } := by
  unfold atCompletion
  decide +kernel

/-- A RELEASE of the lock's holder applied at completion: the shared batch that waited is offered. -/
theorem test_completion_offers :
    let s := applying { dropHolders := home2.holders } home2 .online
    ((after (.completion idleLines false) s).hw.htu.holders.map fun e => (e.station, e.slot, e.state)) =
        [(11, 3, .offered), (5, 6, .offered)]
      ∧ (after (.completion idleLines false) s).hw.htu.waiters = []
      ∧ (after (.completion { idleLines with lvoid := true } false) s).hw.htu.holders = home2.holders := by
  decide +kernel

/-- A home engaged by a lock transaction, or by its own GRANT, with two self-homed requests and a purge cause
waiting, voided and not. -/
theorem witness_DecisionAppliedAtCompletion_waiting :
    (∀ q ∈ ((ending 5 .responder acquire600 (.answered .granted), idleLines)
          :: voids (ending 5 .responder acquire600 (.answered .granted))),
        let s := recordIs q.1 (homeIs
          { Htu.reset with
            engaged := .transaction, decision := some grant88
            claims := [.purgeCause 5 true, .rebuildExpiry] } on)
        atCompletion s q.1 ∧ recordRequest q.1 = some acquire600 ∧ q.1.role = .responder
          ∧ acquire600.kind.isLock = true
          ∧ (.rebuildExpiry ∈ s.hw.htu.claims → s.hw.htu.rebuildTimer = none))
      ∧ (let x : Transaction := { kind := .grant, mode := .exclusive, lock := 530, target := 5 }
        let r := ending 2 .initiator x (.answered .accept)
        atCompletion (recordIs r on) r ∧ recordRequest r = some x ∧ r.role = .initiator
          ∧ r.entry = some x ∧ x.kind = .grant) := by
  unfold atCompletion
  decide +kernel

/-- The claims that waited are taken at the end of the engagement, up to the purge cause that engages the home. -/
theorem test_waiting_claims :
    let release (n : SlotId) : Claim :=
      .selfRequest { kind := .release, station := 2, slot := n, index := 18, mode := .shared
                     tryFlag := false, endFlag := false }
    let t := after (.completion idleLines false)
      (recordIs (ending 5 .responder acquire600 (.answered .granted)) (homeIs
        { Htu.reset with
          engaged := .transaction, decision := some grant88
          claims := [release 3, .purgeCause 5 true, release 4] } on))
    t.hw.rqt.responses.map (·.slot) = [3] ∧ t.hw.htu.claims = [release 4] ∧ t.hw.htu.engaged = .purge
      ∧ t.hw.htu.holders = [] := by decide +kernel

/-- The outcome of the own GRANT stands behind the claims that waited for its completion (R64), and alone it reaches
the free home. -/
theorem test_grant_outcome_order :
    let x : Transaction := { kind := .grant, mode := .exclusive, lock := 530, target := 5 }
    let t (cs : List Claim) := (after (.completion idleLines false)
      (recordIs (ending 2 .initiator x (.answered .accept))
        (homeIs { Htu.reset with engaged := .grant, claims := cs } on))).hw.htu
    (t [.purgeCause 5 true]).claims = [.grantOutcome 5 0 530 .exclusive (.answered .accept)]
      ∧ (t []).claims = [] ∧ (t []).arriving = [.grantOutcome 5 0 530 .exclusive (.answered .accept)] := by
  decide +kernel

/-- A completion of the own transaction brings what its record settles. -/
theorem brings_completion (s : State) (r : TxRecord) (x : Transaction) (y : BusOutcome)
    (h : s.hw.lbc.record = some r ∧ r.phase = .completion ∧ r.role = .initiator
      ∧ r.winner = s.hw.id ∧ r.entry = some x ∧ recordRequest r = some x ∧ outcomeAt r idleLines = y) :
    bringsOutcome (.completion idleLines false) s x y :=
  .inl ⟨r, idleLines, false, rfl, ⟨⟨h.1, h.2.1⟩, h.2.2.1, h.2.2.2.1, h.2.2.2.2.1,
    fun _ => h.2.2.2.2.2.1⟩, h.2.2.2.2.2.2⟩

/-- A self-homed response brings its answer. -/
theorem brings_response (s : State) (x : Transaction) (p : SelfResponse)
    (h : s.hw.rqt.responses.find? (·.slot = x.slot) = some p ∧ p.kind = x.kind
      ∧ (s.hw.rqt.slot x.slot).owed = false) :
    bringsOutcome (.selfHomedResponse x.slot) s x (.answered p.response) :=
  .inr ⟨p, rfl, h.1, h.2.1, rfl, h.2.2⟩

/-- Slot 3's own transaction at its completion, with an outcome. -/
def slotCase (r : SlotRecord) (x : Transaction) (y : BusOutcome) : State :=
  recordIs (ending 2 .initiator x y) (slotIs 3 r (holdsAre [(0, hold x.lock .reserved)] on))

/-- Slot 3 ON_BUS with a number of attempts. -/
def attempt (k : Nat) : SlotRecord := { busy .onBus (acq 1300) with attempts := k }

/-- Every outcome, with 0, 6 and 7 attempts before it: the limit is 8. -/
theorem witness_AcquireOutcomes :
    (∀ y ∈ ([.answered .granted, .answered .queued, .answered .busy, .answered (.refused .waitFull),
        .answered (.refused .holdFull), .answered (.refused .rebuilding), .absent, .void] :
          List BusOutcome), ∀ k ∈ [0, 6, 7],
        bringsOutcome (.completion idleLines false) (slotCase (attempt k) x1300 y) x1300 y)
      ∧ x1300.kind = .acquire ∧ (attempt 7).state = .onBus ∧ (attempt 7).aborted = false
      ∧ (attempt 7).cause = none ∧ (attempt 7).operation = some (acq 1300) ∧ (acq 1300).op = .acquire
      ∧ (acq 1300).lock = x1300.lock ∧ (acq 1300).mode = some .exclusive
      ∧ on.hw.scu.attemptLimit.toNat ≤ 7 + 1 ∧ 6 + 1 < on.hw.scu.attemptLimit.toNat := by
  refine ⟨?_, by decide +kernel⟩
  have h : ∀ y ∈ ([.answered .granted, .answered .queued, .answered .busy, .answered (.refused .waitFull),
      .answered (.refused .holdFull), .answered (.refused .rebuilding), .absent, .void] : List BusOutcome),
      (ending 2 .initiator x1300 y).phase = .completion
        ∧ (ending 2 .initiator x1300 y).role = .initiator ∧ (ending 2 .initiator x1300 y).winner = 2
        ∧ (ending 2 .initiator x1300 y).entry = some x1300
        ∧ recordRequest (ending 2 .initiator x1300 y) = some x1300
        ∧ outcomeAt (ending 2 .initiator x1300 y) idleLines = y := by decide +kernel
  exact fun y hy k _ => brings_completion _ _ _ _ ⟨rfl, h y hy⟩

/-- The self-homed form: an ACQUIRE of lock 600 answered by the own home. -/
theorem witness_AcquireOutcomes_selfHomed :
    bringsOutcome (.selfHomedResponse 3)
      { slotIs 3 (busy .onBus (acq 600)) on with
        hw := { (slotIs 3 (busy .onBus (acq 600)) on).hw with
          rqt := { (slotIs 3 (busy .onBus (acq 600)) on).hw.rqt with
            responses := [⟨3, .acquire, .granted⟩] } } }
      (slotTransaction .acquire 3 (acq 600)) (.answered .granted) :=
  brings_response _ (slotTransaction .acquire 3 (acq 600)) ⟨3, .acquire, .granted⟩ (by decide +kernel)

/-- An answer voided at completion, by LVOID read there or by an error found before it. -/
theorem witness_AcquireOutcomes_lateVoid :
    ∀ q ∈ voids (ending 2 .initiator x1300 (.answered .granted)),
      let s := recordIs q.1 (slotIs 3 (attempt 7) on)
      ownCompletion s q.1 x1300 q.2 ∧ outcomeAt q.1 q.2 = .void := by
  unfold ownCompletion atCompletion
  decide +kernel

/-- Slot 3 with a cancel requested, and CANCELLING. -/
def cancelled (st : SlotState) : SlotRecord := { busy st (acq 1300) with cause := some .timeout }

theorem witness_CancelledAcquireOutcomes :
    bringsOutcome (.completion idleLines false) (slotCase (cancelled .onBus) x1300 (.answered .queued))
        x1300 (.answered .queued)
      ∧ bringsOutcome (.completion idleLines false)
          (slotCase (cancelled .cancelling) (slotTransaction .cancel 3 (acq 1300)) .void)
          (slotTransaction .cancel 3 (acq 1300)) .void
      ∧ (cancelled .onBus).state = .onBus ∧ (cancelled .onBus).aborted = false
      ∧ (cancelled .onBus).cause = some .timeout ∧ (cancelled .onBus).operation = some (acq 1300)
      ∧ (cancelled .cancelling).state = .cancelling
      ∧ (slotTransaction .cancel 3 (acq 1300)).kind = .cancel
      ∧ bringsOutcome (.completion idleLines false)
          (slotCase { cancelled .cancelling with ending := true } (slotTransaction .cancel 3 (acq 1300)) .void)
          (slotTransaction .cancel 3 (acq 1300)) .void :=
  ⟨brings_completion _ (ending 2 .initiator x1300 (.answered .queued)) _ _ (by decide +kernel),
    brings_completion _ (ending 2 .initiator (slotTransaction .cancel 3 (acq 1300)) .void) _ _
      (by decide +kernel), by decide +kernel, by decide +kernel, by decide +kernel, by decide +kernel,
    by decide +kernel, by decide +kernel,
    brings_completion _ (ending 2 .initiator (slotTransaction .cancel 3 (acq 1300)) .void) _ _
      (by decide +kernel)⟩

/-- The self-homed form: an ACQUIRE of lock 600 with a cancel requested, QUEUED by the own home. -/
def cancelledSelf : State :=
  let s := slotIs 3 { busy .onBus (acq 600) with cause := some .client } on
  { s with hw := { s.hw with rqt := { s.hw.rqt with responses := [⟨3, .acquire, .queued⟩] } } }

theorem witness_CancelledAcquireOutcomes_selfHomed :
    bringsOutcome (.selfHomedResponse 3) cancelledSelf (slotTransaction .acquire 3 (acq 600)) (.answered .queued)
      ∧ homeOf (acq 600).lock = cancelledSelf.hw.id ∧ (cancelledSelf.hw.rqt.slot 3).cause = some .client :=
  ⟨brings_response _ (slotTransaction .acquire 3 (acq 600)) ⟨3, .acquire, .queued⟩ (by decide +kernel),
    by decide +kernel, by decide +kernel⟩

/-- Its CANCEL goes to the own home, not to the normal list. -/
theorem test_cancelled_selfHomed :
    let t := after (.selfHomedResponse 3) cancelledSelf
    (t.hw.rqt.slot 3).state = .cancelling ∧ t.hw.lbc.normal = []
      ∧ t.hw.htu.arriving = [.selfRequest ⟨.cancel, 2, 3, 88, .shared, false, false⟩] := by decide +kernel

/-- A RELEASE and a DOWNGRADE of lock 1300. -/
def plain (op : Op) : Operation := plainOperation op 1300

theorem witness_ReleaseOutcomes :
    (∀ y ∈ ([.answered .done, .answered .stale, .absent, .void] : List BusOutcome),
        bringsOutcome (.completion idleLines false)
          (slotCase (busy .onBus (plain .release)) (slotTransaction .release 3 (plain .release)) y)
          (slotTransaction .release 3 (plain .release)) y)
      ∧ (busy .onBus (plain .release)).state = .onBus ∧ (plain .release).op = .release
      ∧ (slotTransaction .release 3 (plain .release)).kind = .release
      ∧ (plain .release).lock = (slotTransaction .release 3 (plain .release)).lock := by
  refine ⟨?_, by decide +kernel⟩
  have h : ∀ y ∈ ([.answered .done, .answered .stale, .absent, .void] : List BusOutcome),
      let r := ending 2 .initiator (slotTransaction .release 3 (plain .release)) y
      r.phase = .completion ∧ r.role = .initiator ∧ r.winner = 2
        ∧ r.entry = some (slotTransaction .release 3 (plain .release))
        ∧ recordRequest r = some (slotTransaction .release 3 (plain .release)) ∧ outcomeAt r idleLines = y := by
    decide +kernel
  exact fun y hy => brings_completion _ _ _ _ ⟨rfl, h y hy⟩

theorem witness_DowngradeOutcomes :
    (∀ y ∈ ([.answered .done, .answered .stale, .answered (.refused .rebuilding), .absent, .void] :
          List BusOutcome),
        bringsOutcome (.completion idleLines false)
          (holdsAre [(0, hold 1300 .downgrading)]
            (slotCase (busy .onBus (plain .downgrade)) (slotTransaction .downgrade 3 (plain .downgrade)) y))
          (slotTransaction .downgrade 3 (plain .downgrade)) y)
      ∧ findHold 3 1300 [(0, hold 1300 .downgrading)] = some (hold 1300 .downgrading)
      ∧ (busy .onBus (plain .downgrade)).state = .onBus ∧ (plain .downgrade).op = .downgrade
      ∧ (slotTransaction .downgrade 3 (plain .downgrade)).kind = .downgrade := by
  refine ⟨?_, by decide +kernel⟩
  have h : ∀ y ∈ ([.answered .done, .answered .stale, .answered (.refused .rebuilding), .absent, .void] :
      List BusOutcome),
      let r := ending 2 .initiator (slotTransaction .downgrade 3 (plain .downgrade)) y
      r.phase = .completion ∧ r.role = .initiator ∧ r.winner = 2
        ∧ r.entry = some (slotTransaction .downgrade 3 (plain .downgrade))
        ∧ recordRequest r = some (slotTransaction .downgrade 3 (plain .downgrade)) ∧ outcomeAt r idleLines = y := by
    decide +kernel
  exact fun y hy => brings_completion _ _ _ _ ⟨rfl, h y hy⟩

/-- The home engaged by a lock transaction from station 5, which it has not decided. -/
def claiming (st : StationState) (x : Transaction) (t : Htu) : State :=
  recordIs { carried 5 .responder x .observing with lrsp := true }
    (homeIs { t with engaged := .transaction, decision := none } (station st))

/-- The words of a transaction from station 5 are read as written. -/
theorem claiming_claim (st : StationState) (x : Transaction) (t : Htu)
    (h : x.kind.isLock = true ∧ readRequest (requestWord0 5 x) (requestWord1 x) = some x
      ∧ sourceField (requestWord0 5 x) = 5) :
    lockClaim (claiming st x t) x 5 :=
  ⟨rfl, rfl, h.1, _, _, rfl, rfl, rfl, rfl, h.2.1, h.2.2⟩

theorem witness_LockClaimRecordsDecision : lockClaim (claiming .online acquire600 Htu.reset) acquire600 5 :=
  claiming_claim _ _ _ (by decide +kernel)

/-- The transaction that engages the home, without a stall, at the close of its observation phase. -/
theorem witness_ObservationClose_decides :
    lockClaim (claiming .online acquire600 Htu.reset) acquire600 5
      ∧ ({ carried 5 .responder acquire600 .observing with lrsp := true } : TxRecord).lstall = false :=
  ⟨claiming_claim _ _ _ (by decide +kernel), by decide +kernel⟩

/-- The close decides what no command has decided. -/
theorem test_close_decides :
    (after (.observationClose idleLines) (claiming .online acquire600 Htu.reset)).hw.htu.decision.map (·.response)
      = some .granted := by decide +kernel

/-- `k` shared holders of other locks, and `k` waiters of another lock. -/
def holders (k : Nat) : List Holder :=
  (List.range k).map fun i =>
    { index := 1, station := 7, slot := Fin.ofNat 32 i, mode := .shared, state := .held, posted := none }

/-- `k` waiters of lock 1. -/
def waiters (k : Nat) : List Waiter :=
  (List.range k).map fun i => { index := 1, station := 7, slot := Fin.ofNat 32 i, mode := .shared }

/-- The free entries at their ends (511 and 512 holders, 191 and 192 waiters), the try flag, and a conflict. -/
theorem witness_AcquireDecision :
    lockClaim (claiming .rebuilding acquire600 Htu.reset) acquire600 5
      ∧ lockClaim (claiming .online { acquire600 with tryFlag := true } home2)
          { acquire600 with tryFlag := true } 5
      ∧ (claiming .rebuilding acquire600 Htu.reset).hw.home = .rebuilding
      ∧ (claiming .online acquire600 Htu.reset).hw.home = .serving
      ∧ (∀ w ∈ waiters 192, w.index ≠ indexOf acquire600.lock)
      ∧ (∀ e ∈ holders 512, e.index = indexOf acquire600.lock →
          acquire600.mode = .shared ∧ e.mode = .shared)
      ∧ (holders 511).length < 512 ∧ ¬(holders 512).length < 512
      ∧ (waiters 191).length < 192 ∧ 192 ≤ (waiters 192).length
      ∧ ¬(∀ w ∈ home2.waiters, w.index ≠ 18) :=
  ⟨claiming_claim _ _ _ (by decide +kernel), claiming_claim _ _ _ (by decide +kernel), by decide +kernel⟩

/-- Client (5, 0) holds lock 530; client (11, 3) waits for it; a third is OFFERED. -/
theorem witness_ReleaseDowngradeCancelDecisions :
    (∀ k ∈ [Kind.release, .downgrade, .cancel],
        lockClaim (claiming .online { kind := k, lock := 530 } home2) { kind := k, lock := 530 } 5)
      ∧ (∀ e ∈ home2.holders, ∀ f ∈ home2.holders, e.index = 18 ∧ e.station = 5 ∧ e.slot = 0 →
          f.index = 18 ∧ f.station = 5 ∧ f.slot = 0 → e = f)
      ∧ (∀ w ∈ home2.waiters, ∀ v ∈ home2.waiters, w.index = 18 ∧ w.station = 5 ∧ w.slot = 6 →
          v.index = 18 ∧ v.station = 5 ∧ v.slot = 6 → w = v)
      ∧ (∃ e ∈ home2.holders, e.index = 18 ∧ e.station = 5 ∧ e.slot = 0 ∧ e.state = .held)
      ∧ (∃ w ∈ home2.waiters, w.index = 18 ∧ w.station = 5 ∧ w.slot = 6) := by
  refine ⟨?_, by decide +kernel⟩
  have h : ∀ k ∈ [Kind.release, .downgrade, .cancel],
      k.isLock = true
        ∧ readRequest (requestWord0 5 { kind := k, lock := 530 }) (requestWord1 { kind := k, lock := 530 })
          = some { kind := k, lock := 530 }
        ∧ sourceField (requestWord0 5 { kind := k, lock := 530 }) = 5 := by decide +kernel
  exact fun k hk => claiming_claim _ _ _ (h k hk)

/-- A station awaited and one not; the closing entry; a recorded, a fitting and a conflicting hold. -/
theorem witness_ReassertDecision :
    lockClaim (claiming .rebuilding { kind := .reassert, mode := .exclusive, lock := 530 }
        { home2 with awaited := 0x20 }) { kind := .reassert, mode := .exclusive, lock := 530 } 5
      ∧ (claiming .rebuilding { kind := .reassert, mode := .exclusive, lock := 530 }
          { home2 with awaited := 0x20 }).hw.htu.awaited.getLsbD 5 = true
      ∧ home2.awaited.getLsbD 5 = false
      ∧ (∃ e ∈ home2.holders, e.index = 18 ∧ e.station = 5 ∧ e.slot = 0)
      ∧ ¬(∀ e ∈ home2.holders, e.index = 18 → Mode.shared = .shared ∧ e.mode = .shared)
      ∧ (∀ e ∈ holders 511, e.index = 18 → Mode.exclusive = .shared ∧ e.mode = .shared)
      ∧ (holders 511).length < 512 :=
  ⟨claiming_claim _ _ _ (by decide +kernel), by decide +kernel⟩

/-- The walker with homes 5 and 11 in its list, a hold of home 5 sent and one not. -/
def walking (x : Transaction) (y : BusOutcome) : State :=
  let s := recordIs (ending 2 .initiator x y)
    (holdsAre [(0, { hold 1300 .held with mark := true }), (1, hold 1301 .held)] on)
  { s with
    hw := { s.hw with
      rqt := { s.hw.rqt with homes := [5, 11], phase := some .sending, outstanding := 1 } } }

/-- Every outcome of a REASSERT that carries a lock, and of the closing one. -/
theorem witness_ReassertDecision_outcomes :
    (∀ e : Bool, ∀ y ∈ [BusOutcome.answered .done, .answered .stale, .answered .conflict, .absent, .void],
        let x : Transaction := { kind := .reassert, slot := 3, mode := .exclusive, lock := 1300, endFlag := e }
        let s := walking x y
        let r := ending 2 .initiator x y
        ownCompletion s r x idleLines ∧ outcomeAt r idleLines = y ∧ s.hw.rqt.homes = 5 :: [11] ∧ homeOf x.lock = 5
          ∧ findHold x.slot x.lock s.hw.rqt.holds = some { hold 1300 .held with mark := true })
      ∧ (flushing on).hw.scu.flushing = true := by
  unfold ownCompletion atCompletion
  decide +kernel

/-- The walk after an outcome: the next hold and the closing entry from SENDING, nothing in CLOSING, and the next home
where the home is finished or ABSENT. -/
theorem test_walk_goes_on :
    let x (e : Bool) : Transaction := { kind := .reassert, slot := 3, mode := .exclusive, lock := 1300, endFlag := e }
    let walked (ph : WalkerPhase) (e : Bool) (y : BusOutcome) : Nat × Option WalkerPhase × List (Nat × Bool) :=
      let s := walking (x e) y
      let t := after (.completion idleLines false)
        { s with hw := { s.hw with rqt := { s.hw.rqt with phase := some ph } } }
      (t.hw.rqt.homes.length, t.hw.rqt.phase, t.hw.lbc.priority.map fun z => (z.lock.val, z.endFlag))
    walked .sending false (.answered .done) = (2, some .closing, [(1301, false), (1280, true)])
      ∧ walked .closing false (.answered .done) = (2, some .closing, [])
      ∧ walked .closing true (.answered .stale) = (1, some .closing, [(2816, true)])
      ∧ walked .sending false .absent = (1, some .closing, [(2816, true)]) := by decide +kernel

/-- A self-homed RELEASE of slot 3 that has reached the free home. -/
theorem witness_SelfHomedRequestServed :
    let s := homeIs { Htu.reset with holders := holders 3, arriving := [.selfRequest selfRelease] } on
    s.hw.htu.engaged = .free ∧ s.hw.htu.arriving = .selfRequest selfRelease :: []
      ∧ s.hw.htu.waiters = [] ∧ s.hw.htu.stalled = [] ∧ selfRelease.kind = .release
      ∧ ∀ e ∈ s.hw.htu.holders,
          e.station = selfRelease.station → e.slot = selfRelease.slot → e.state = .held := by
  decide +kernel

/-- A response handed for slot 3, behind one for slot 4, its owed-response mark set. -/
theorem witness_SelfHomedRequestServed_owed :
    let p : SelfResponse := ⟨3, .release, .done⟩
    let s := slotIs 3 { SlotRecord.reset with owed := true } { on with
      hw := { on.hw with rqt := { on.hw.rqt with responses := [⟨4, .release, .done⟩, p, p] } } }
    s.hw.rqt.responses = [⟨4, .release, .done⟩] ++ p :: [p]
      ∧ (∀ v ∈ [(⟨4, .release, .done⟩ : SelfResponse)], v.slot ≠ 3) ∧ p.slot = 3
      ∧ (s.hw.rqt.slot 3).owed = true := by decide +kernel

/-- A self-homed RELEASE at a home with waiters on its lock and a stalled lock. -/
theorem witness_SelfHomedRequestServed_waiters :
    let s := homeIs
      { home2 with arriving := [.selfRequest selfRelease], waiters := waiters 192, stalled := [18] } on
    s.hw.htu.engaged = .free ∧ s.hw.htu.arriving = .selfRequest selfRelease :: []
      ∧ selfRelease.kind = .release ∧ s.hw.htu.waiters ≠ [] ∧ s.hw.home = .serving := by decide +kernel

/-- An outcome from the lockbus and one from the own RQT; an OFFERED entry, and none. -/
theorem witness_OfferOutcomes :
    (BusOutcome.answered .accept = .answered .accept ↔ true = true)
      ∧ (BusOutcome.absent = .answered .accept ↔ false = true)
      ∧ (∀ c ∈ [Claim.grantOutcome 5 0 530 .exclusive (.answered .accept),
            .grantOutcome 5 0 530 .exclusive .absent, .internalOutcome 0 530 .exclusive false],
          let s := homeIs
            { Htu.reset with
              holders := [⟨18, 5, 0, .exclusive, .offered, some true⟩, ⟨18, 2, 0, .exclusive, .offered, none⟩]
              arriving := [c] } on
          s.hw.htu.engaged = .free ∧ s.hw.htu.arriving = c :: [] ∧ s.hw.htu.waiters = []
            ∧ s.hw.htu.stalled = [] ∧ (∃ e ∈ s.hw.htu.holders, isOfferTo (indexOf 530) 5 0 e = true)
            ∧ (∃ e ∈ s.hw.htu.holders, isOfferTo (indexOf 530) s.hw.id 0 e = true))
      ∧ (∀ e ∈ home2.holders, isOfferTo (indexOf 530) 5 0 e = false) := by decide +kernel

/-- A DECLINE at a home with a second waiter of the lock: the waiter is offered. -/
theorem test_decline_offers_next :
    let s := homeIs
      { Htu.reset with
        holders := [⟨18, 5, 0, .exclusive, .offered, some true⟩], waiters := [⟨18, 7, 1, .exclusive⟩]
        arriving := [.grantOutcome 5 0 530 .exclusive (.answered .decline)] } on
    ((after .grantOutcome s).hw.htu.holders.map fun e => (e.station, e.state)) = [(7, .offered)]
      ∧ (after .grantOutcome s).hw.htu.waiters = [] := by decide +kernel

/-- The own GRANT answered, and to an absent station; a purge in progress, an empty backlog, and an offer in it. -/
theorem witness_OfferOutcomes_completion :
    (∀ y ∈ [BusOutcome.answered .accept, .absent],
        ∀ t ∈ [{ Htu.reset with posted := 8 }, { Htu.reset with posted := 8, backlog := [⟨18, 7, 0, .shared⟩] },
          { Htu.reset with posted := 1, purge := some ⟨5, true, 1, [], false, []⟩ }],
        let x : Transaction := { kind := .grant, mode := .exclusive, lock := 530, target := 5 }
        let r := ending 2 .initiator x y
        let s := recordIs r (homeIs t on)
        ownCompletion s r x idleLines ∧ ¬voided r idleLines ∧ settle r ≠ .void ∧ s.hw.htu.claims = []
          ∧ s.hw.htu.posted ≤ 8) := by
  unfold ownCompletion atCompletion
  decide +kernel

theorem witness_EvaluationLeavesNoOfferDue : (18 : LockIndex) ≠ 19 := by decide

/-- Slot 3 of this station waiting for lock 530, at a home whose queue for it holds the slot alone. -/
def ownWaiting (st : SlotState) : State :=
  homeIs { Htu.reset with waiters := [⟨18, 2, 3, .exclusive⟩] }
    (holdsAre [(0, hold 530 .reserved)] (slotIs 3 (busy st (acq 530)) on))

/-- The slot accepts an offer of its lock in its mode where it waits, and declines it otherwise. -/
theorem witness_EvaluationLeavesNoOfferDue_own :
    acceptsOffer 3 530 .exclusive (ownWaiting .waiting).hw ∧ ¬acceptsOffer 3 530 .shared (ownWaiting .waiting).hw
      ∧ ¬acceptsOffer 3 530 .exclusive (ownWaiting .cancelling).hw
      ∧ ¬acceptsOffer 3 530 .exclusive (flushing (ownWaiting .waiting)).hw := by
  simp only [← answerOffer_accepts]
  decide +kernel

/-- ACCEPT: the entry HELD, the slot DONE with its RESULT, and the answer at the home; DECLINE: the answer alone. -/
theorem test_own_offer_answered :
    let t (st : SlotState) := evaluate 18 (ownWaiting st).hw
    (t .waiting).rqt.holds = [(0, hold 530 .held)] ∧ ((t .waiting).rqt.slot 3).state = .done
      ∧ (t .waiting).cqu.queue = [.result 3 .acquire 530 (some .exclusive) .acquired .none]
      ∧ (t .waiting).htu.arriving = [.internalOutcome 3 530 .exclusive true]
      ∧ (t .cancelling).rqt = (ownWaiting .cancelling).hw.rqt ∧ (t .cancelling).cqu.queue = []
      ∧ (t .cancelling).htu.arriving = [.internalOutcome 3 530 .exclusive false] := by decide +kernel

/-- The answer to an own slot's offer made at the end of an engagement comes to the free home, behind the claims that
waited. -/
theorem test_answer_after_waiting :
    let s := applying { dropHolders := home2.holders }
      { home2 with waiters := [⟨18, 2, 3, .shared⟩], claims := [.selfRequest selfRelease] } .online
    let t := after (.completion idleLines false) s
    t.hw.htu.claims = [] ∧ t.hw.htu.arriving = [.internalOutcome 3 530 .shared false]
      ∧ t.hw.rqt.responses = [⟨3, .release, .stale⟩]
      ∧ (after .internalGrantOutcome t).hw.htu.holders = [] := by decide +kernel

theorem witness_PurgeCauseTaken :
    (∀ st ∈ [StationState.joining, .online],
        (homeIs { home2 with arriving := [.purgeCause 5 true] } (station st)).hw.htu.engaged = .free)
      ∧ (homeIs { home2 with arriving := [.purgeCause 5 true] } on).hw.htu.arriving = .purgeCause 5 true :: []
      ∧ (station .joining).hw.home = .inactive ∧ on.hw.home ≠ .inactive := by decide +kernel

/-- The tables with an offer posted and one in the backlog to station 5, and the same to station 7. -/
def offersOut : Htu :=
  { Htu.reset with
    arriving := [.purgeCause 5 true], posted := 2
    holders :=
      [⟨18, 5, 0, .shared, .offered, some true⟩, ⟨18, 7, 0, .shared, .offered, some true⟩,
        ⟨19, 5, 1, .shared, .offered, some false⟩, ⟨19, 7, 1, .shared, .offered, some false⟩]
    backlog := [⟨19, 5, 1, .shared⟩, ⟨19, 7, 1, .shared⟩] }

/-- A posted GRANT of lock 18 of the home at station 2. -/
def grant18 (p : StationId) : Transaction := { kind := .grant, lock := lockAt 2 18, target := p }

/-- Each GRANT to the station purged and each of its places in the backlog has its OFFERED entry. -/
theorem witness_PurgeCauseTaken_offers :
    (∀ y ∈ [grant18 5, grant18 7], y.kind = .grant → y.target = 5 →
        y.lock = lockAt on.hw.id 18
          ∧ ∃ e ∈ offersOut.holders, e.station = 5 ∧ e.state = .offered ∧ e.posted = some true
            ∧ e.index = 18 ∧ e.slot = y.targetSlot)
      ∧ (∀ w ∈ offersOut.backlog, w.station = 5 →
        ∃ e ∈ offersOut.holders, e.station = 5 ∧ e.state = .offered ∧ e.posted = some false
          ∧ e.index = w.index ∧ e.slot = w.slot)
      ∧ (([grant18 5, grant18 7].filter fun x => x.kind = .grant ∧ x.target = 5).map
          fun x => (x.lock, x.targetSlot)).Nodup
      ∧ (homeIs offersOut on).hw.htu.engaged = .free ∧ (homeIs offersOut on).hw.home ≠ .inactive := by
  decide +kernel

/-- The purge lowers the posted count by the one GRANT withdrawn. -/
theorem test_purge_lowers_posted :
    let s := homeIs offersOut on
    let t := after .purgeCause
      { s with hw := { s.hw with lbc := { s.hw.lbc with priority := [grant18 5, grant18 7] } } }
    t.hw.htu.posted = 1 ∧ t.hw.lbc.priority = [grant18 7] := by decide +kernel

/-- A purge that removed two entries, and one that removed none. -/
theorem witness_PurgeEndQueuesEvict :
    ∀ k ∈ [0, 2],
      (homeIs { Htu.reset with purge := some ⟨5, true, k, [], false, []⟩ } on).hw.htu.purge
          = some ⟨5, true, k, [], false, []⟩
        ∧ (homeIs { Htu.reset with purge := some ⟨5, true, k, [], false, []⟩ } on).hw.htu.claims = []
        ∧ (homeIs { Htu.reset with purge := some ⟨5, true, k, [], false, []⟩ } on).hw.lbc.priority = [] := by
  decide +kernel

/-- A purge of station 5 with an offer in the backlog and a waiter on a touched lock, of a rebuild expiry or not. -/
def purging (st : StationState) (rebuild : Bool) (rest : List StationId) : State :=
  homeIs
    { Htu.reset with
      holders := [⟨19, 7, 1, .shared, .offered, some false⟩], backlog := [⟨19, 7, 1, .shared⟩]
      waiters := [⟨18, 7, 0, .exclusive⟩], engaged := .purge
      purge := some ⟨5, true, 2, [18], rebuild, rest⟩ }
    (station st)

/-- The last purge of a cause at a home that serves, and of a rebuild expiry, with the next station to come or not;
a touched lock, and one that is not. -/
theorem witness_PurgeEndQueuesEvict_closed :
    (∀ st ∈ [StationState.online, .leaving, .rebuilding], ∀ b : Bool, ∀ rest ∈ [[], [(7 : StationId)]],
        (purging st b rest).hw.htu.purge = some ⟨5, true, 2, [18], b, rest⟩
          ∧ (purging st b rest).hw.htu.claims = [])
      ∧ (purging .online false []).hw.home = .serving ∧ (purging .rebuilding true []).hw.home = .rebuilding
      ∧ 18 ∈ [(18 : LockIndex)] := by decide +kernel

/-- The end of that purge: the EVICT before the GRANT of the backlog, the waiter offered, REBUILD_EVICTED with the
next purge, and ONLINE after the last. -/
theorem test_purge_end :
    let kinds (t : State) := t.hw.lbc.priority.map fun x => (x.kind, x.target)
    kinds (after .purgeEnd (purging .online false [])) = [(.evict, 5), (.grant, 7), (.grant, 7)]
      ∧ (after .purgeEnd (purging .online false [])).hw.htu.waiters = []
      ∧ (after .purgeEnd (purging .rebuilding true [7])).hw.cqu.events.rebuildEvicted = some 5
      ∧ (after .purgeEnd (purging .rebuilding true [7])).hw.htu.holders = []
      ∧ (after .purgeEnd (purging .rebuilding true [7])).hw.htu.purge.map (·.removed) = some 2
      ∧ (after .purgeEnd (purging .rebuilding true [])).hw.scu.station = .online := by decide +kernel

/-- The end of a purge with claims waiting, a rebuild expiry among them, and the timer stopped. -/
theorem witness_PurgeEndQueuesEvict_waiting :
    let s := homeIs
      { (purging .online false []).hw.htu with claims := [.selfRequest selfRelease, .rebuildExpiry] } on
    s.hw.htu.purge = some ⟨5, true, 2, [18], false, []⟩
      ∧ (.rebuildExpiry ∈ s.hw.htu.claims → s.hw.htu.rebuildTimer = none)
      ∧ (after .purgeEnd s).hw.htu.claims = [] ∧ (after .purgeEnd s).hw.rqt.responses ≠ [] := by decide +kernel

theorem witness_WaitTimerExpiry :
    (on.hw.rqt.slot 3).waitTimer = none
      ∧ ((cancelCase .waiting 1300).hw.rqt.slot 3).waitTimer.isSome = true
      ∧ ((cancelCase .waiting 1300).hw.rqt.slot 3).aborted = false
      ∧ ((cancelCase .waiting 1300).hw.rqt.slot 3).operation = some (acq 1300) := by decide +kernel

theorem witness_BackoffExpiryReissues :
    ∀ b : Bool,
      let r := (slotIs 3 { busy .backoff (acq (lockOf b)) with backoffTimer := some 0 } on).hw.rqt.slot 3
      r.state = .backoff ∧ r.backoffTimer.isSome = true ∧ r.aborted = false
        ∧ r.operation = some (acq (lockOf b)) ∧ (acq (lockOf b)).op = .acquire
        ∧ (acq (lockOf b)).mode = some .exclusive := by decide +kernel

/-- A DOWNGRADE in BACKOFF. -/
theorem witness_BackoffExpiryReissues_downgrade :
    let r := (slotIs 3 { busy .backoff (plain .downgrade) with backoffTimer := some 0 } on).hw.rqt.slot 3
    r.state = .backoff ∧ r.backoffTimer.isSome = true ∧ r.aborted = false
      ∧ r.operation = some (plain .downgrade) ∧ (plain .downgrade).op = .downgrade := by decide +kernel

/-- The membership unit of the station ONLINE: peer 5 PRESENT, the beacon timer running. -/
def members (mark : Bool) : State :=
  { on with
    hw := { on.hw with
      mbu := { (on.hw.mbu.setMember 5 ⟨.present, some 14999⟩) with
        beaconTimer := some 1, wonMark := mark } } }

theorem witness_BeaconTimerExpiry :
    (∀ m ∈ [false, true], (members m).hw.mbu.beaconTimer.isSome = true ∧ (members m).hw.mbu.wonMark = m)
      ∧ (members false).hw.lbc.normal = [] ∧ (members false).hw.lbc.record = none := by decide +kernel

theorem witness_SilenceDeclaresLost :
    ((members false).hw.mbu.member 5).timer = some 14999 ∧ 0 < 14999
      ∧ ((members false).hw.mbu.member 5).state = .present ∧ silenceHeld 5 (members false).hw = false
      ∧ (5 : StationId) ≠ (members false).hw.id ∧ (members false).hw.home ≠ .inactive
      ∧ holdTableLaw (members false).hw.rqt.holds
      ∧ (on.hw.mbu.setMember 5 ⟨.present, some 0⟩).member 5 = ⟨.present, some 0⟩ := by
  unfold holdTableLaw
  decide +kernel

/-- A peer's BEACON at its completion. -/
def beaconEnding : TxRecord := ending 5 .observer { kind := .beacon } .complete

/-- The completion of the peer's transaction due (R121), and a home that awaits the peer alone, and with another. -/
theorem witness_SilenceDeclaresLost_together :
    (recordIs beaconEnding (members false)).hw.lbc.record = some beaconEnding
      ∧ beaconEnding.winner = 5 ∧ beaconEnding.phase = .completion
      ∧ (∀ b : Bool,
          (homeIs { Htu.reset with awaited := if b then 0x20 else 0x820 } (station .rebuilding)).hw.home = .rebuilding
            ∧ (if b then 0x20 else 0x820 : BitVec 16).getLsbD 5 = true)
      ∧ (0x20 : BitVec 16) &&& ~~~(BitVec.twoPow 16 5) = 0
      ∧ (0x820 : BitVec 16) &&& ~~~(BitVec.twoPow 16 5) ≠ 0 :=
  ⟨rfl, rfl, rfl, by decide +kernel, by decide +kernel, by decide +kernel⟩

/-- A slot that waits, one with an ACCEPT in flight, and one CANCELLING. -/
theorem witness_SilenceDeclaresLost_slots :
    onHome (slotIs 3 (busy .waiting (acq 1300)) on) 5 3 (acq 1300)
      ∧ acceptInFlight 3 (slotIs 3 (busy .waiting (acq 1300)) on).hw = false
      ∧ acceptInFlight 3 (accepting (slotIs 3 (busy .waiting (acq 1300)) on)).hw = true
      ∧ onHome (slotIs 3 (cancellingOn 1300) on) 5 3 (acq 1300)
      ∧ (cancellingOn 1300).cause = some .timeout := by
  unfold onHome
  decide +kernel

theorem witness_ListenWindowEnds :
    (after .join (station .offline)).hw.scu.station = .listening
      ∧ (after .join (station .offline)).hw.scu.listenTimer.isSome = true := by decide +kernel

/-- A home that rebuilds and awaits stations 5 and 11. -/
def rebuilding (e : Engagement) : State :=
  homeIs { Htu.reset with awaited := 0x820, rebuildTimer := some 1, engaged := e } (station .rebuilding)

theorem witness_RebuildTimerExpiry :
    (rebuilding .transaction).hw.htu.engaged ≠ .free
      ∧ (rebuilding .free).hw.htu.rebuildTimer.isSome = true ∧ (rebuilding .free).hw.htu.arriving = []
      ∧ (rebuilding .free).hw.home = .rebuilding ∧ (rebuilding .free).hw.htu.awaited.getLsbD 5 = true
      ∧ ∀ v : StationId, (rebuilding .free).hw.htu.awaited.getLsbD v.val = true → 5 ≤ v.val := by
  decide +kernel

/-- The stations left to purge stand in ascending ID. -/
theorem test_rebuild_order :
    let s := homeIs { Htu.reset with awaited := 0x9820, rebuildTimer := some 1 } (station .rebuilding)
    (after .rebuildTimerExpiry s).hw.htu.purge.map (fun g => (g.station, g.rest)) = some (5, [11, 12, 15]) := by
  decide +kernel

/-- An expiry behind a claim that has reached the free home, one handed and the oldest, and none. -/
theorem witness_RebuildTimerExpiry_arrivals :
    let s (cs : List Claim) (k : Option Nat) :=
      reached cs { Htu.reset with awaited := 0x820, rebuildTimer := k } (station .rebuilding)
    (∃ c ∈ (s [.purgeCause 7 true] (some 1)).hw.htu.arriving.head?, c ≠ .rebuildExpiry)
      ∧ (s [.rebuildExpiry, .purgeCause 7 true] none).hw.htu.arriving = .rebuildExpiry :: [.purgeCause 7 true]
      ∧ (s [] none).hw.htu.arriving.head? ≠ some .rebuildExpiry
      ∧ (s [] none).hw.htu.rebuildTimer = none ∧ on.hw.home ≠ .rebuilding :=
  ⟨⟨_, rfl, nofun⟩, rfl, nofun, rfl, by decide +kernel⟩

/-- Line 0 as a PULSE line that owes `k` pulses. -/
def pulsing (k : Nat) : State :=
  { on with
    hw := { on.hw with
      scu := { on.hw.scu with lineModes := #v[.pulse, .level, .level, .level] }
      cqu := { on.hw.cqu with lines := on.hw.cqu.lines.set 0 ⟨k, .high⟩ } } }

theorem witness_PulsesOwed :
    (∀ k ∈ [1, 2, 255], (pulsing k).hw.scu.lineModes.get 0 = .pulse
        ∧ ((pulsing k).hw.cqu.lines.get 0).phase ≠ .idle)
      ∧ routedTo (pulsing 255).hw.scu (.notice 3) = .line 0
      ∧ routedTo (pulsing 255).hw.scu (.result 3 .acquire 1300 none .acquired .none) = .line 0
      ∧ routedTo (pulsing 255).hw.scu .station = .line 3 ∧ (on.hw.cqu.lines.get 0).phase = .idle := by
  decide +kernel

/-- An append routed to line 0, with its pulse in progress and with none; one routed to a LEVEL line. -/
theorem test_append_pulse :
    let idle := { (pulsing 0).hw with cqu := on.hw.cqu }
    (appendEntry (.notice 3) (pulsing 255).hw).cqu.lines = (pulsing 255).hw.cqu.lines
      ∧ (appendEntry (.notice 3) idle).cqu.lines.get 0 = ⟨1, .high⟩
      ∧ (appendEntry (.notice 3) idle).cqu.lines.get 1 = ⟨0, .idle⟩
      ∧ (appendEntry .station idle).cqu.lines = idle.cqu.lines
      ∧ (appendEntry .station { idle with scu := { idle.scu with stationRoute := .none } }).cqu.lines =
          idle.cqu.lines := by decide +kernel

/-- The own transaction of a kind at its unvoided completion. -/
def ownAt (st : StationState) (k : Kind) (j : BitVec 16) : State :=
  recordIs { ending 2 .initiator { kind := k } .complete with presence := some j } (station st)

theorem ownAt_completion (st : StationState) (k : Kind) (j : BitVec 16)
    (h : recordRequest (ending 2 .initiator { kind := k } .complete) = some { kind := k }) :
    ownCompletion (ownAt st k j)
      { ending 2 .initiator { kind := k } .complete with presence := some j } { kind := k } idleLines :=
  ⟨⟨rfl, rfl⟩, rfl, rfl, rfl, fun _ => h⟩

/-- The presence sets at a JOIN: none, a peer, and the own ID. -/
theorem witness_OwnJoinCompletes :
    (∀ j ∈ ([0, 0x20, 0x24] : List (BitVec 16)), ownCompletion (ownAt .joining .join j)
        { ending 2 .initiator { kind := .join } .complete with presence := some j } { kind := .join } idleLines)
      ∧ (ownAt .joining .join 0).hw.scu.station = .joining
      ∧ (∀ k ∈ [Kind.join, .leave, .purge], ¬voided (ending 2 .initiator { kind := k } .complete) idleLines)
      ∧ (0x24 : BitVec 16).getLsbD 2 = true ∧ (0x20 : BitVec 16).getLsbD 2 = false :=
  ⟨fun j _ => ownAt_completion _ _ j (by decide +kernel), by decide +kernel⟩

/-- A completion won by the own ID and only observed, voided and not. -/
theorem witness_OwnJoinCompletes_duplicate :
    ∀ st ∈ [StationState.listening, .joining], ∀ y ∈ [BusOutcome.complete, .void],
      let r := ending 2 .observer { kind := .beacon } y
      let s := recordIs r (station st)
      s.hw.lbc.record = some r ∧ r.phase = .completion ∧ r.winner = s.hw.id ∧ r.role = .observer
        ∧ (s.hw.scu.station = .listening ∨ s.hw.scu.station = .joining) := by decide +kernel

/-- The same met while present: a JOIN, a LEAVE and a BEACON, a PURGE, an EVICT naming this station, voided or not. -/
theorem witness_OwnJoinCompletes_present :
    ∀ st ∈ [StationState.rebuilding, .online, .leaving],
      ∀ x ∈ [({ kind := .join } : Transaction), { kind := .leave }, { kind := .beacon }, { kind := .purge },
        { kind := .evict, target := 2 }], ∀ y ∈ [BusOutcome.complete, .void],
      let r := ending 2 .observer x y
      let s := recordIs r (station st)
      atCompletion s r ∧ r.winner = s.hw.id ∧ r.role = .observer ∧ s.hw.scu.station.present = true
        ∧ recordRequest r = some x ∧ (voided r idleLines ↔ y = .void) := by
  unfold atCompletion
  decide +kernel

/-- A JOIN won by the own ID and only observed: no event, no cause. -/
theorem test_own_id_observed :
    after (.completion idleLines false) (recordIs (ending 2 .observer { kind := .join } .complete) on) = on := by
  decide +kernel

theorem witness_OwnLeaveCompletes :
    ownCompletion (ownAt .leaving .leave 0x20)
      { ending 2 .initiator { kind := .leave } .complete with presence := some 0x20 } { kind := .leave }
      idleLines := ownAt_completion _ _ _ (by decide +kernel)

theorem witness_OwnPurgeEndsFlush :
    ownCompletion (ownAt .leaving .purge 0x24)
        { ending 2 .initiator { kind := .purge } .complete with presence := some 0x24 } { kind := .purge }
        idleLines
      ∧ (ownAt .leaving .purge 0x24).hw.scu.station.present = true :=
  ⟨ownAt_completion _ _ _ (by decide +kernel), by decide +kernel⟩

/-- At the end of the flush a head in SENDING is sent its closing REASSERT, and one in CLOSING nothing. -/
theorem test_flush_end_walk :
    let ended (ph : WalkerPhase) :=
      let s := flushing (ownAt .online .purge 0x24)
      let t := after (.completion idleLines false)
        { s with hw := { s.hw with rqt := { s.hw.rqt with homes := [5], phase := some ph } } }
      (t.hw.rqt.phase, t.hw.lbc.priority.map (·.lock.val))
    ended .sending = (some .closing, [1280]) ∧ ended .closing = (some .closing, []) := by decide +kernel

/-- A peer's transaction at its unvoided completion, observed. -/
theorem observed_completion (st : StationState) (x : Transaction)
    (h : recordRequest (ending 5 .observer x .complete) = some x) :
    peerCompletion (recordIs (ending 5 .observer x .complete) (station st)) (ending 5 .observer x .complete) x :=
  ⟨⟨rfl, rfl⟩, rfl, (by show (5 : StationId) ≠ 2; decide), h⟩

theorem witness_PeerJoinObserved :
    (∀ st ∈ [StationState.online, .listening], peerCompletion
        (recordIs (ending 5 .observer { kind := .join } .complete) (station st))
        (ending 5 .observer { kind := .join } .complete) { kind := .join })
      ∧ (∀ k ∈ [Kind.join, .leave], ¬voided (ending 5 .observer { kind := k } .complete) idleLines)
      ∧ (ending 5 .observer { kind := .join } .complete).presence = some 0
      ∧ (0 : BitVec 16).getLsbD 5 = false ∧ on.hw.home = .serving :=
  ⟨fun st _ => observed_completion st _ (by decide +kernel), by decide +kernel⟩

/-- A PURGE of a peer at a home that serves, that rebuilds, and that is INACTIVE. -/
theorem witness_PeerJoinObserved_purge :
    (∀ st ∈ [StationState.online, .rebuilding, .joining], peerCompletion
        (recordIs (ending 5 .observer { kind := .purge } .complete) (station st))
        (ending 5 .observer { kind := .purge } .complete) { kind := .purge })
      ∧ ¬voided (ending 5 .observer { kind := .purge } .complete) idleLines
      ∧ (station .joining).hw.home = .inactive ∧ (station .rebuilding).hw.home ≠ .inactive :=
  ⟨fun st _ => observed_completion st _ (by decide +kernel), by decide +kernel⟩

/-- The peer's PURGE at a home that holds for it: its cause is taken, and no EVICT follows (R161). -/
theorem test_peer_purge :
    let s := recordIs (ending 5 .observer { kind := .purge } .complete) (homeIs home2 on)
    let t := after .purgeCause (after (.completion idleLines false) s)
    t.hw.htu.holders = [] ∧ t.hw.htu.purge.map (·.removed) = some 2
      ∧ (after .purgeEnd t).hw.lbc.priority.map (·.kind) = [.grant] := by decide +kernel

/-- A LEAVE of a peer at a home that serves, and in LISTENING; a slot that waits on the peer's lock. -/
theorem witness_PeerJoinObserved_leave :
    (∀ st ∈ [StationState.online, .listening], peerCompletion
        (recordIs (ending 5 .observer { kind := .leave } .complete) (station st))
        (ending 5 .observer { kind := .leave } .complete) { kind := .leave })
      ∧ onHome (slotIs 3 (busy .waiting (acq 1300)) on) 5 3 (acq 1300)
      ∧ (acq 1300).op = .acquire ∧ (acq 1300).mode = some .exclusive ∧ holdTableLaw [(0, hold 1300 .held)] :=
  ⟨fun st _ => observed_completion st _ (by decide +kernel), by unfold onHome; decide +kernel, rfl, rfl,
    by unfold holdTableLaw; decide +kernel⟩

/-- A home that rebuilds and awaits the peer, alone and with another; a JOIN whose source is in its presence set. -/
theorem witness_PeerJoinObserved_awaited :
    (∀ k ∈ [Kind.join, .leave], peerCompletion
        (recordIs (ending 5 .observer { kind := k } .complete) (station .rebuilding))
        (ending 5 .observer { kind := k } .complete) { kind := k })
      ∧ (∀ b : Bool,
          let s := homeIs { Htu.reset with awaited := if b then 0x20 else 0x820 } (station .rebuilding)
          s.hw.home = .rebuilding ∧ s.hw.htu.awaited.getLsbD 5 = true ∧ s.hw.scu.station.present = true)
      ∧ { ending 5 .observer { kind := .join } .complete with presence := some 0x20 }.presence = some 0x20
      ∧ (0x20 : BitVec 16).getLsbD 5 = true :=
  ⟨fun k hk => observed_completion .rebuilding _ (by revert k; decide +kernel), by decide +kernel, rfl,
    by decide +kernel⟩

/-- The walker's list empty, headed by the peer, and headed by another home. -/
def walkerIs (homes : List StationId) : State :=
  let s := holdsAre [(0, { hold 1300 .held with mark := true }), (1, hold 1301 .held)] on
  { s with
    hw := { s.hw with
      rqt := { s.hw.rqt with
        homes, phase := if homes = [] then none else some .sending
        outstanding := if homes = [] then 0 else 1 }
      lbc := { s.hw.lbc with
        priority :=
          if homes = [] then [] else [{ kind := .reassert, slot := 3, mode := .exclusive, lock := 1300 }] } } }

/-- The walk of the peer 5 begun, begun again and left to its turn; and the peer gone from each list. -/
theorem witness_PeerJoinObserved_walker :
    (∀ k ∈ [Kind.join, .leave], ∀ homes ∈ [[], [(5 : StationId)], [5, 11], [11, 5]], peerCompletion
        (recordIs (ending 5 .observer { kind := k } .complete) (walkerIs homes))
        (ending 5 .observer { kind := k } .complete) { kind := k })
      ∧ (∀ homes ∈ [[], [(5 : StationId)], [5, 11], [11, 5]],
          (walkerIs homes).hw.rqt.homes = homes ∧ holdTableLaw (walkerIs homes).hw.rqt.holds)
      ∧ (walkerIs []).hw.scu.station.present = true := by
  refine ⟨fun k hk homes _ => ⟨⟨rfl, rfl⟩, rfl, (by show (5 : StationId) ≠ 2; decide), ?_⟩, ?_,
    by decide +kernel⟩
  · revert k
    decide +kernel
  · unfold holdTableLaw
    decide +kernel

/-- A JOIN of the head home: its REASSERT listed goes, its marks are cleared, and its walk starts again. -/
theorem test_walk_restarted :
    let t := after (.completion idleLines false)
      (recordIs (ending 5 .observer { kind := .join } .complete) (walkerIs [5, 11]))
    t.hw.lbc.priority.map (fun x => (x.lock, x.endFlag)) = [(1300, false), (1301, false), (1280, true)]
      ∧ t.hw.rqt.outstanding = 3 ∧ t.hw.rqt.phase = some .closing := by decide +kernel

/-- Holds of home 5 and home 2, held, releasing and reserved. -/
def mixedHolds : List (Nat × Hold) :=
  [(0, hold 1300 .held), (1, hold 1301 .releasing), (2, hold 1302 .reserved), (3, hold 600 .held)]

theorem witness_EvictRevokesHolds :
    peerCompletion (recordIs (ending 5 .observer { kind := .evict, target := 2 } .complete) on)
        (ending 5 .observer { kind := .evict, target := 2 } .complete) { kind := .evict, target := 2 }
      ∧ ¬voided (ending 5 .observer { kind := .evict, target := 2 } .complete) idleLines
      ∧ holdTableLaw mixedHolds ∧ on.hw.scu.station.present = true :=
  ⟨observed_completion .online _ (by decide +kernel), by decide +kernel, by unfold holdTableLaw; decide +kernel,
    by decide +kernel⟩

/-- Slot 3 waits on lock 1300 of home 5, slot 4 backs off on lock 1301, each with its reservation. -/
def reserving : State :=
  slotIs 3 (busy .waiting (acq 1300)) (slotIs 4 (busy .backoff (acq 1301))
    (holdsAre [(0, hold 1300 .reserved), (1, { hold 1301 .reserved with slot := 4 })] (members false)))

/-- A wait that ends, and one that does not. -/
theorem witness_EvictRevokesHolds_reservations :
    let t := after (.completion idleLines false)
      (recordIs (ending 5 .observer { kind := .evict, target := 2 } .complete) reserving)
    waitEnded reserving t (hold 1300 .reserved)
      ∧ ¬waitEnded reserving t { hold 1301 .reserved with slot := 4 }
      ∧ holdTableLaw reserving.hw.rqt.holds :=
  ⟨⟨by decide +kernel, by decide +kernel, acq 1300, by decide +kernel, rfl⟩,
    fun h => absurd h.2.1 (by decide +kernel), by unfold holdTableLaw; decide +kernel⟩

/-- The reservation of the wait that an EVICT, a LEAVE or a LOST home ends is gone, the other stays; a JOIN has the wait
issued again, and both stay. -/
theorem test_reservations :
    let left (c : Instr) (x : Transaction) :=
      (after c (recordIs (ending 5 .observer x .complete) reserving)).hw.rqt.holds.map (·.1)
    left (.completion idleLines false) { kind := .evict, target := 2 } = [1]
      ∧ left (.completion idleLines true) { kind := .leave } = [1]
      ∧ left (.silenceTimerExpiry 5 false) { kind := .beacon } = [1]
      ∧ left (.completion idleLines false) { kind := .join } = [0, 1] := by decide +kernel

/-- The home's content as it leaves INACTIVE. -/
theorem test_join_enters_empty :
    let s (j : BitVec 16) := homeIs { home2 with stalled := [18] } (ownAt .joining .join j)
    (after (.completion idleLines false) (s 0x20)).hw.htu =
        { Htu.reset with awaited := 0x20, rebuildTimer := some 20000 }
      ∧ (after (.completion idleLines false) (s 0)).hw.htu = Htu.reset := by decide +kernel

theorem witness_HoldTableLawKept :
    holdTableLaw mixedHolds ∧ step (holdsAre mixedHolds on) = .next (tick (holdsAre mixedHolds on)) :=
  ⟨by unfold holdTableLaw; decide +kernel, rfl⟩

theorem witness_StationLawKept : stationLaw on.hw := by
  refine ⟨by decide +kernel, by decide +kernel, by decide +kernel, by decide +kernel, by decide +kernel,
    by decide +kernel, by decide +kernel, by decide +kernel, ?_⟩
  exact fun p h => nomatch h

theorem witness_CountLawKept : countLaw (pulsing 255).hw := by
  unfold countLaw
  decide +kernel

/-- A slot DONE with its RESULT, a NOTICE and the STATION entry in the queue. -/
def queued : State :=
  let s := slotIs 3 (busy .done (acq 1300)) on
  { s with
    hw := { s.hw with
      cqu := { s.hw.cqu with
        queue := [.result 3 .acquire 1300 (some .exclusive) .acquired .none, .notice 4, .station]
        notices := s.hw.cqu.notices.set 4 true
        events := { EventSet.empty with online := true } } } }

theorem witness_CountLawKept_queue : queueLaw queued.hw := by
  refine ⟨by decide +kernel, by decide +kernel, by decide +kernel, by decide +kernel, by decide +kernel, ?_⟩
  intro x hx
  have : (queued.hw.lbc.normal = [] ∧ queued.hw.lbc.priority = []) ∧ entryOnBus queued.hw = none := by
    decide +kernel
  simp [this] at hx

theorem witness_CountLawKept_walker :
    walkerLaw { on.hw with rqt := { on.hw.rqt with homes := [5], phase := some .sending, outstanding := 4 } } := by
  unfold walkerLaw
  decide +kernel

/-- Tables with one entry free, and a decision that fills it. -/
theorem witness_CountLawKept_capacity :
    capacityLaw
      { on.hw with
        htu := { Htu.reset with
          holders := holders 511, waiters := waiters 192, decision := some grant88
          engaged := .transaction } } := by
  refine ⟨by decide +kernel, by decide +kernel, ?_⟩
  intro d h
  have e : d = grant88 := (Option.some.inj h).symm
  subst e
  decide +kernel

/-- The home's law with a decision that stands. -/
theorem witness_ExclusiveHoldsKept : homeLaw deciding.hw := by
  refine ⟨by unfold exclusiveLaw; decide +kernel, ?_, ?_⟩
  · intro d h
    have e : d = grant88 := (Option.some.inj h).symm
    subst e
    unfold exclusiveLaw
    decide +kernel
  · refine ⟨by decide +kernel, by decide +kernel,
      fun _ => ⟨_, acquire600, rfl, rfl, rfl, by decide +kernel, by decide +kernel⟩, by decide +kernel,
      by decide +kernel, by decide +kernel, fun h => absurd h (by decide +kernel), ?_, ?_, ?_, ?_,
      by decide +kernel, by unfold expiryOnce; decide +kernel, by decide +kernel⟩
    · intro r h _
      have e : ending 5 .responder acquire600 (.answered .granted) = r := Option.some.inj h
      subst e
      decide +kernel
    · intro r h hr
      have e : ending 5 .responder acquire600 (.answered .granted) = r := Option.some.inj h
      subst e
      exact absurd hr (by decide +kernel)
    · intro r t h _ hq
      have e : ending 5 .responder acquire600 (.answered .granted) = r := Option.some.inj h
      subst e
      have ht : t = acquire600 := (Option.some.inj ((by decide +kernel :
        recordRequest (ending 5 .responder acquire600 (.answered .granted)) = some acquire600).symm.trans
          hq)).symm
      subst ht
      exact ⟨by decide +kernel, fun _ => .inr (by decide +kernel)⟩
    · intro r t h hr
      have e : ending 5 .responder acquire600 (.answered .granted) = r := Option.some.inj h
      subst e
      exact absurd hr (by decide +kernel)

/-- The law of the clients at a home with a decision that stands, and at one with a waiter. -/
theorem witness_CountLawKept_clients :
    clientLaw deciding.hw ∧ clientLaw (homeIs home2 on).hw ∧ home2.holders ≠ [] ∧ home2.waiters ≠ [] := by
  refine ⟨⟨by unfold clientOnce; decide +kernel, fun d h => ?_⟩,
    ⟨by unfold clientOnce; decide +kernel, fun d h => ?_⟩, by decide +kernel, by decide +kernel⟩
  · have e : d = grant88 := (Option.some.inj h).symm
    subst e
    unfold clientOnce
    decide +kernel
  · have hd : (homeIs home2 on).hw.htu.decision = none := rfl
    exact absurd (hd.symm.trans h) nofun

/-- A home that serves with a waiter whose head conflicts, in a state that is lawful in both ways. -/
theorem witness_CountLawKept_offers :
    let h := (homeIs home2 on).hw
    homeLaw h ∧ offerLaw h ∧ h.home = .serving ∧ h.htu.purge = none := by
  have hd : (homeIs home2 on).hw.htu.decision = none := rfl
  have hr : (homeIs home2 on).hw.lbc.record = none := rfl
  have hi : ∀ i, (headWaiter i (homeIs home2 on).hw.htu).isSome = true → i = 18 := by decide +kernel
  refine ⟨⟨by unfold exclusiveLaw; decide +kernel, fun d h => ?_, by decide +kernel, by decide +kernel,
      fun h => absurd h (by decide +kernel), by decide +kernel, by decide +kernel, by decide +kernel,
      fun h => absurd h (by decide +kernel), fun r h => ?_, fun r h => ?_, fun r t h => ?_, fun r t h => ?_,
      by decide +kernel, by unfold expiryOnce; decide +kernel, by decide +kernel⟩,
    ⟨fun _ i w h => ?_, by decide +kernel, fun h => absurd h (by decide +kernel)⟩, rfl, rfl⟩
  · exact absurd (hd.symm.trans h) nofun
  iterate 4 exact absurd (hr.symm.trans h) nofun
  · have e : i = 18 := hi i (by rw [h]; rfl)
    subst e
    exact .inl ⟨_, List.mem_singleton.mpr rfl, rfl, fun c => nomatch c.2⟩

end Sys2Proof.Tests
end

