-- ==== Sys2Proof/Proofs/Settle.lean ====
section
/-! The outcome settled at completion, one equation for each rank of its order of precedence (R38). -/

namespace Sys2Proof.Machine

variable {r : TxRecord} {x : Transaction} {y : Response}

/-- A void seen overrides whatever else the record holds (R35, R38). -/
theorem settle_of_voidSeen (hv : r.voidSeen = true) : settle r = .void := if_pos hv

/-- Without a void, a kind that has no response is complete, whether a station responded or not (R38). -/
theorem settle_of_no_response (hx : recordRequest r = some x) (hv : r.voidSeen = false)
    (hk : x.kind.hasResponse = false) : settle r = .complete := by
  simp [settle, hv, hx, hk]

/-- Without a void, a kind that has a response and met no responder is ABSENT, whatever word was read (R38). -/
theorem settle_of_no_responder (hx : recordRequest r = some x) (hv : r.voidSeen = false)
    (hk : x.kind.hasResponse = true) (ha : r.responded = some false) : settle r = .absent := by
  simp [settle, hv, hx, hk, ha]

/-- Without a void, a kind that has a response and met a responder settles as the response read (R38). -/
theorem settle_of_response (hx : recordRequest r = some x) (hv : r.voidSeen = false)
    (hk : x.kind.hasResponse = true) (ha : r.responded = some true) (hy : r.response = some y) :
    settle r = .answered y := by
  simp [settle, hv, hx, hk, ha, hy]

/-- Settles O29, rank by rank of the order of precedence. -/
theorem outcomePrecedence : Obligations.OutcomePrecedence := by
  unfold Obligations.OutcomePrecedence
  intro r x hx
  refine ⟨settle_of_voidSeen, fun hv => ⟨?absent, ?answered, ?complete⟩⟩
  case absent => exact settle_of_no_responder hx hv
  case answered => exact fun hk ha _ => settle_of_response hx hv hk ha
  case complete => exact settle_of_no_response hx hv

end Sys2Proof.Machine
end

section
/-! How the outcome of a slot's transaction comes to the slot, by the completion of the own transaction on the lockbus or
by the response to the self-homed request (R39, R52, R80), and what it does to a RELEASE and a DOWNGRADE (R87, R88). -/

namespace Sys2Proof.Machine

/-- The station as an outcome reaches a slot: what comes before it writes at most the record (R41), the membership unit
(R114) and the responses handed (R80). -/
def delivered (record : Option TxRecord) (mbu : Mbu) (responses : List SelfResponse) (h : Hw) : Hw :=
  { h with lbc := { h.lbc with record }, mbu, rqt := { h.rqt with responses } }

/-- The membership unit's part of an own completion sets the won mark, whatever the outcome (R114). -/
theorem membershipCompleted_own {r : TxRecord} (h : Hw) (hr : r.role = .initiator) (hw : r.winner = h.id)
    (o : BusOutcome) : membershipCompleted r o h = { h with mbu := { h.mbu with wonMark := true } } := by
  have hs : sighting r.winner (r.role = .initiator) h = { h with mbu := { h.mbu with wonMark := true } } := by
    simp [sighting, hw, hr]
  unfold membershipCompleted
  split
  · rw [if_neg fun hc => hc.2.2 hw]
    exact hs
  · exact hs

/-- The slot owns the entries of its four kinds (R39). -/
theorem initiatorCompleted_slot {x : Transaction} (hk : x.kind.isSlot = true) (round : Round)
    (presence : BitVec 16) (y : BusOutcome) (h : Hw) :
    initiatorCompleted round x presence y h = slotOutcome x y h := by
  cases hx : x.kind with
  | acquire | release | downgrade | cancel => simp [initiatorCompleted, hx]
  | grant | reassert | beacon | join | leave | purge | evict => simp [hx, Kind.isSlot] at hk

/-- The completion of a slot's own transaction is the slot's outcome (R39). -/
theorem exec_completion_slot {s : State} {r : TxRecord} {x : Transaction} {o : Lines} (ef : Bool)
    (hc : ownCompletion s r x o) (hk : x.kind.isSlot = true) :
    exec (.completion o ef) s =
      .next { s with
        hw := slotOutcome x (outcomeAt r o)
          (delivered none { s.hw.mbu with wonMark := true } s.hw.rqt.responses s.hw) } := by
  obtain ⟨⟨hrec, hphase⟩, hrole, hwin, hentry, -⟩ := hc
  have hm : ∀ y, membershipCompleted (r.noteVoid r.error o.lvoid) y (closeRecord s.hw) =
      delivered none { s.hw.mbu with wonMark := true } s.hw.rqt.responses s.hw :=
    membershipCompleted_own (closeRecord s.hw) hrole hwin
  have hd : ∀ y b, deliver (r.noteVoid r.error o.lvoid) y ef b = slotOutcome x y b := by
    intro y b
    simp only [deliver, TxRecord.noteVoid, hrole, hentry, initiatorCompleted_slot hk]
  show acts (completeTransaction o ef) s = _
  simp only [acts_eq, completeTransaction, hrec, hphase, if_true, settle_completion, hm, hd]

/-- A self-homed response, taken by a slot that is owed none, is the slot's outcome (R52, R80). -/
theorem exec_selfHomedResponse_slot {s : State} {x : Transaction} {p : SelfResponse}
    (hf : s.hw.rqt.responses.find? (·.slot = x.slot) = some p) (hk : p.kind = x.kind)
    (ho : (s.hw.rqt.slot x.slot).owed = false) :
    exec (.selfHomedResponse x.slot) s =
      .next { s with
        hw := slotOutcome x (.answered p.response)
          (delivered s.hw.lbc.record s.hw.mbu (s.hw.rqt.responses.erase p) s.hw) } := by
  have hp : p.slot = x.slot := by simpa using List.find?_some hf
  show acts (takeSlotResponse x.slot) s = _
  simp only [acts_eq, takeSlotResponse, hf, takeResponse, hp, ho, hk]
  rfl

/-- In both ways an outcome is brought, the slot takes it. -/
theorem exec_bringsOutcome {c : Instr} {s : State} {x : Transaction} {y : BusOutcome}
    (hb : bringsOutcome c s x y) (hk : x.kind.isSlot = true) :
    ∃ record mbu responses,
      exec c s = .next { s with hw := slotOutcome x y (delivered record mbu responses s.hw) } := by
  obtain ⟨r, o, ef, rfl, hown, rfl⟩ | ⟨p, rfl, hf, hp, rfl, ho⟩ := hb
  · exact ⟨_, _, _, exec_completion_slot ef hown hk⟩
  · exact ⟨_, _, _, exec_selfHomedResponse_slot hf hp ho⟩

/-! ### An outcome at a slot that awaits it -/

variable {x : Transaction} (h : Hw)

theorem awaitsOutcome_onBus {k : Kind} {r : SlotRecord} (hk : k ≠ .cancel) (hs : r.state = .onBus)
    (ha : r.aborted = false) : awaitsOutcome k r = true := by
  simp [awaitsOutcome, hk, hs, ha]

theorem slotOutcome_void (ha : awaitsOutcome x.kind (h.rqt.slot x.slot) = true) :
    slotOutcome x .void h = slotVoid x h := if_pos ha

theorem slotOutcome_absent (ha : awaitsOutcome x.kind (h.rqt.slot x.slot) = true) :
    slotOutcome x .absent h = slotAbsent x.kind x.slot h := if_pos ha

theorem slotOutcome_answered (ha : awaitsOutcome x.kind (h.rqt.slot x.slot) = true) (p : Response) :
    slotOutcome x (.answered p) h = slotAnswered x.kind x.slot p h := if_pos ha

theorem slotOutcome_complete : slotOutcome x .complete h = h := ite_self h

/-- A voided RELEASE or DOWNGRADE is kept, without limit (R87, R88). -/
theorem slotVoid_kept (hc : x.kind ≠ .cancel) (ha : x.kind ≠ .acquire) : slotVoid x h = keepSlotEntry x h := by
  simp [slotVoid, hc, ha]

/-! ### What the parts of an outcome write -/

/-- From `h` to `g` the other slots than `n`, the home, the SCU and the pins are as they were. -/
def sameBesidesSlot (n : SlotId) (h g : Hw) : Prop :=
  sameSlotsBut n h.rqt g.rqt ∧ g.htu = h.htu ∧ g.scu = h.scu ∧ g.port = h.port

variable (n : SlotId)

theorem sameBesidesSlot_refl : sameBesidesSlot n h h := ⟨fun _ _ => rfl, rfl, rfl, rfl⟩

/-- An entry kept after a void: at the head of the normal list, its slot QUEUED_OUT (R40). -/
theorem keepSlotEntry_eq (hc : x.kind ≠ .cancel) :
    keepSlotEntry x h = returnNormal x (h.setSlot x.slot { h.rqt.slot x.slot with state := .queuedOut }) := by
  simp [keepSlotEntry, hc]

theorem sameBesidesSlot_setSlot (r : SlotRecord) : sameBesidesSlot n h (h.setSlot n r) :=
  ⟨fun _ hm => slot_setSlot_ne h hm.symm r, rfl, rfl, rfl⟩

theorem keepSlotEntry_sameBesidesSlot (hc : x.kind ≠ .cancel) : sameBesidesSlot x.slot h (keepSlotEntry x h) := by
  rw [keepSlotEntry_eq h hc]
  exact sameBesidesSlot_setSlot h x.slot _

theorem enterBackoff_sameBesidesSlot : sameBesidesSlot n h (enterBackoff n h) := sameBesidesSlot_setSlot h n _

theorem endOperation_sameBesidesSlot (c : ResultCode) (d : ResultDetail) (m : Option Mode) :
    sameBesidesSlot n h (endOperation n c d m h) :=
  ⟨endOperation_others h n c d m, by simp, by simp, by simp⟩

/-! ### The operation's hold entry -/

@[simp] theorem dropOperationHold_slot (k : SlotId) : (dropOperationHold n h).rqt.slot k = h.rqt.slot k := by
  simp [Rqt.slot]

@[simp] theorem setOperationHold_slot (st : HoldState) (m : Mode) (k : SlotId) :
    (setOperationHold n st m h).rqt.slot k = h.rqt.slot k := by
  simp [Rqt.slot]

theorem sameBesidesSlot_of_dropOperationHold {g : Hw} (hg : sameBesidesSlot n (dropOperationHold n h) g) :
    sameBesidesSlot n h g := by
  simpa [sameBesidesSlot, sameSlotsBut] using hg

theorem sameBesidesSlot_of_setOperationHold {st : HoldState} {m : Mode} {g : Hw}
    (hg : sameBesidesSlot n (setOperationHold n st m h) g) : sameBesidesSlot n h g := by
  simpa [sameBesidesSlot, sameSlotsBut] using hg

theorem findHold_removeHold (l : LockId) (t : List (Nat × Hold)) : findHold n l (removeHold n l t) = none :=
  findHold_none.mpr fun _ hp => of_decide_eq_true (List.mem_filter.mp hp).2

/-- The entry found after an alteration that keeps slots and locks is the altered one. -/
theorem findHold_updateHold (l : LockId) {f : Hold → Hold} (hf : ∀ e, (f e).slot = e.slot ∧ (f e).lock = e.lock)
    (t : List (Nat × Hold)) : findHold n l (updateHold n l f t) = (findHold n l t).map f := by
  induction t with
  | nil => rfl
  | cons p t ih =>
    simp only [findHold, updateHold, Option.map_map] at ih ⊢
    by_cases hp : p.2.slot = n ∧ p.2.lock = l
    · simp [hp, hf]
    · simpa [hp] using ih

/-- An operation whose own entry is gone leaves the other entries as they stand. -/
theorem withoutReservation_removeHold (l : LockId) (t : List (Nat × Hold)) :
    withoutReservation n l (removeHold n l t) = removeHold n l t := by
  simp [withoutReservation, findHold_removeHold]

/-- An entry that has become HELD is no reservation, and the end of the operation keeps it (R81). -/
theorem withoutReservation_held (l : LockId) (m : Mode) (t : List (Nat × Hold)) :
    withoutReservation n l (updateHold n l (Hold.become .held m) t) = updateHold n l (Hold.become .held m) t := by
  rw [withoutReservation, findHold_updateHold n l (f := Hold.become .held m) (fun _ => ⟨rfl, rfl⟩), if_neg]
  cases findHold n l t <;> simp [Hold.become]

variable {q : Operation} {p : Op}

theorem dropOperationHold_holds (hq : (h.rqt.slot n).operation = some q) :
    (dropOperationHold n h).rqt.holds = removeHold n q.lock h.rqt.holds := by
  simp [dropOperationHold, hq]

theorem setOperationHold_holds (hq : (h.rqt.slot n).operation = some q) (st : HoldState) (m : Mode) :
    (setOperationHold n st m h).rqt.holds = updateHold n q.lock (Hold.become st m) h.rqt.holds := by
  simp [setOperationHold, hq]

/-! ### An operation that ends without its hold -/

/-- The operation ends and its hold entry is removed: RELEASED, or HOLD_LOST (R87, R88). -/
def endWithoutHold (n : SlotId) (c : ResultCode) (d : ResultDetail) (m : Option Mode) (h : Hw) : Hw :=
  endOperation n c d m (dropOperationHold n h)

variable (c : ResultCode) (d : ResultDetail) (m : Option Mode)

theorem endWithoutHold_sameBesidesSlot : sameBesidesSlot n h (endWithoutHold n c d m h) :=
  sameBesidesSlot_of_dropOperationHold h n (endOperation_sameBesidesSlot _ n c d m)

theorem endWithoutHold_lbc : (endWithoutHold n c d m h).lbc = h.lbc := by
  simp [endWithoutHold]

/-- The end without the hold writes the slot, the queue and the hold table (R81). -/
theorem endWithoutHold_writes (hq : (h.rqt.slot n).operation = some q) (hop : q.op = p) (hc : c ≠ .acquired) :
    ((endWithoutHold n c d m h).rqt.slot n = (h.rqt.slot n).ended
      ∧ (endWithoutHold n c d m h).cqu.queue = h.cqu.queue ++ [.result n p q.lock m c d])
      ∧ (endWithoutHold n c d m h).rqt.holds = removeHold n q.lock h.rqt.holds := by
  have hd : ((dropOperationHold n h).rqt.slot n).operation = some q := by simpa using hq
  refine ⟨⟨?slot, ?queue⟩, ?holds⟩
  case slot => rw [endWithoutHold, endOperation_slot _ n hd, dropOperationHold_slot]
  case queue => rw [endWithoutHold, endOperation_queue _ n hd, dropOperationHold_cqu, hop]
  case holds =>
    rw [endWithoutHold, endOperation_holds _ n hd hc, dropOperationHold_holds h n hq,
      withoutReservation_removeHold]

/-- A RELEASE ends without its hold, with the mode the hold had (R87). -/
theorem endRelease_eq (hq : (h.rqt.slot n).operation = some q) :
    endRelease n d h = endWithoutHold n .released d ((findHold n q.lock h.rqt.holds).map (·.mode)) h := by
  simp [endRelease, endWithoutHold, operationHold, hq]

/-! ### An operation that ends with its hold HELD -/

/-- The operation ends with its hold entry HELD in a mode, and the walker acts on it (R88, R143). -/
def endHolding (n : SlotId) (c : ResultCode) (m : Mode) (h : Hw) : Hw :=
  walkerAct (endOperation n c .none (some m) (setOperationHold n .held m h))

variable (mode : Mode)

@[simp] theorem walkerAct_slot (k : SlotId) : (walkerAct h).rqt.slot k = h.rqt.slot k := by
  simp [Rqt.slot]

theorem walkerAct_sameBesidesSlot {g : Hw} (hg : sameBesidesSlot n h g) : sameBesidesSlot n h (walkerAct g) := by
  simpa [sameBesidesSlot, sameSlotsBut] using hg

/-- An act of the walker changes nothing in the hold table but marks (R143). -/
theorem walkerAct_unmarked : unmarked (walkerAct h).rqt.holds = unmarked h.rqt.holds := by
  obtain ⟨_, -, -, -, hu, -⟩ := walkerAct_placed h
  exact hu

theorem endHolding_sameBesidesSlot : sameBesidesSlot n h (endHolding n c mode h) :=
  walkerAct_sameBesidesSlot h n (sameBesidesSlot_of_setOperationHold h n (endOperation_sameBesidesSlot _ n c .none _))

/-- The end with the hold HELD writes the slot, the queue and, but for marks, that hold entry (R81, R88). -/
theorem endHolding_writes (hq : (h.rqt.slot n).operation = some q) (hop : q.op = p) (hc : c ≠ .acquired) :
    ((endHolding n c mode h).rqt.slot n = (h.rqt.slot n).ended
      ∧ (endHolding n c mode h).cqu.queue = h.cqu.queue ++ [.result n p q.lock (some mode) c .none])
      ∧ unmarked (endHolding n c mode h).rqt.holds =
          unmarked (updateHold n q.lock (fun e => { e with state := .held, mode }) h.rqt.holds) := by
  have hs : ((setOperationHold n .held mode h).rqt.slot n).operation = some q := by simpa using hq
  refine ⟨⟨?slot, ?queue⟩, ?holds⟩
  case slot => rw [endHolding, walkerAct_slot, endOperation_slot _ n hs, setOperationHold_slot]
  case queue => rw [endHolding, walkerAct_cqu, endOperation_queue _ n hs, setOperationHold_cqu, hop]
  case holds =>
    rw [endHolding, walkerAct_unmarked, endOperation_holds _ n hs hc, setOperationHold_holds h n hq,
      withoutReservation_held]
    rfl

/-! ### RELEASE (R87) -/

/-- What an outcome can do to a RELEASE: nothing, its end, or, after a void, its return to the list (R87). -/
theorem releaseOutcome_cases (hk : x.kind = .release) (ha : awaitsOutcome x.kind (h.rqt.slot x.slot) = true)
    (y : BusOutcome) :
    slotOutcome x y h = h ∨ (∃ d, slotOutcome x y h = endRelease x.slot d h)
      ∨ slotOutcome x y h = keepSlotEntry x h := by
  cases y with
  | void =>
    rw [slotOutcome_void h ha, slotVoid_kept h (by simp [hk]) (by simp [hk])]
    exact .inr (.inr rfl)
  | absent =>
    rw [slotOutcome_absent h ha, hk]
    exact .inr (.inl ⟨_, rfl⟩)
  | answered p =>
    rw [slotOutcome_answered h ha, hk]
    cases p with
    | done | stale => exact .inr (.inl ⟨_, rfl⟩)
    | granted | queued | busy | refused _ | notWaiting | accept | decline | conflict => exact .inl rfl
  | complete => exact .inl (slotOutcome_complete h)

theorem endRelease_sameBesidesSlot : sameBesidesSlot n h (endRelease n d h) :=
  endWithoutHold_sameBesidesSlot h n .released d _

@[simp] theorem endRelease_lbc : (endRelease n d h).lbc = h.lbc := endWithoutHold_lbc h n .released d _

theorem releaseOutcome_frame (hk : x.kind = .release) (ha : awaitsOutcome x.kind (h.rqt.slot x.slot) = true)
    (y : BusOutcome) :
    sameBesidesSlot x.slot h (slotOutcome x y h) ∧ (slotOutcome x y h).lbc.priority = h.lbc.priority := by
  obtain he | ⟨d, he⟩ | he := releaseOutcome_cases h hk ha y
  · rw [he]
    exact ⟨sameBesidesSlot_refl h _, rfl⟩
  · rw [he]
    exact ⟨endRelease_sameBesidesSlot h _ d, by simp⟩
  · rw [he]
    have hc : x.kind ≠ .cancel := by simp [hk]
    exact ⟨keepSlotEntry_sameBesidesSlot h hc, by simp [keepSlotEntry_eq h hc]⟩

/-- The four writes of a RELEASE that ends (R87). -/
theorem endRelease_writes (hq : (h.rqt.slot n).operation = some q) (hop : q.op = .release) :
    (endRelease n d h).rqt.slot n = (h.rqt.slot n).ended
      ∧ (endRelease n d h).cqu.queue = h.cqu.queue ++
          [.result n .release q.lock ((findHold n q.lock h.rqt.holds).map (·.mode)) .released d]
      ∧ (endRelease n d h).rqt.holds = removeHold n q.lock h.rqt.holds
      ∧ (endRelease n d h).lbc.normal = h.lbc.normal := by
  obtain ⟨⟨hslot, hqueue⟩, hholds⟩ := endWithoutHold_writes h n .released d
    ((findHold n q.lock h.rqt.holds).map (·.mode)) hq hop (by simp)
  rw [endRelease_eq h n d hq]
  exact ⟨hslot, hqueue, hholds, by rw [endWithoutHold_lbc]⟩

/-- The writes of a void that keeps a RELEASE or a DOWNGRADE (R87, R88). -/
theorem slotVoid_writes (hc : x.kind ≠ .cancel) (ha : x.kind ≠ .acquire) :
    (slotVoid x h).rqt.slot x.slot = { h.rqt.slot x.slot with state := .queuedOut }
      ∧ (slotVoid x h).lbc.normal = x :: h.lbc.normal ∧ (slotVoid x h).rqt.holds = h.rqt.holds
      ∧ (slotVoid x h).cqu.queue = h.cqu.queue := by
  rw [slotVoid_kept h hc ha, keepSlotEntry_eq h hc]
  exact ⟨slot_setSlot_same h _ _, rfl, rfl, rfl⟩

/-- Settles O34: each outcome through what the end of a RELEASE and a kept entry write. -/
theorem releaseOutcomes : Obligations.ReleaseOutcomes := by
  unfold Obligations.ReleaseOutcomes
  intro c s x y q hb hk n r hstate habort hq hop _
  obtain ⟨record, mbu, responses, hexec⟩ := exec_bringsOutcome hb (by simp [hk, Kind.isSlot])
  have ha : awaitsOutcome x.kind ((delivered record mbu responses s.hw).rqt.slot x.slot) = true :=
    awaitsOutcome_onBus (by simp [hk]) hstate habort
  obtain ⟨⟨hothers, hhtu, hscu, hport⟩, hpriority⟩ := releaseOutcome_frame _ hk ha y
  have hends := fun d => endRelease_writes (delivered record mbu responses s.hw) x.slot d hq hop
  refine ⟨_, hexec, hothers, hhtu, hscu, hport, hpriority, ?done, ?stale, ?absent, ?void⟩
  case done =>
    rintro rfl
    rw [slotOutcome_answered _ ha, hk]
    exact hends .plain
  case stale =>
    rintro rfl
    rw [slotOutcome_answered _ ha, hk]
    exact hends .stale
  case absent =>
    rintro rfl
    rw [slotOutcome_absent _ ha, hk]
    exact hends .absent
  case void =>
    rintro rfl
    rw [slotOutcome_void _ ha]
    exact slotVoid_writes _ (by simp [hk]) (by simp [hk])

/-! ### DOWNGRADE (R88) -/

/-- What an outcome can do to a DOWNGRADE: nothing, its end with the hold or without it, a backoff, or, after a void,
its return to the list (R88). -/
theorem downgradeOutcome_cases (hk : x.kind = .downgrade)
    (ha : awaitsOutcome x.kind (h.rqt.slot x.slot) = true) (y : BusOutcome) :
    slotOutcome x y h = h ∨ (∃ c m, slotOutcome x y h = endHolding x.slot c m h)
      ∨ slotOutcome x y h = endWithoutHold x.slot .holdLost .none none h
      ∨ slotOutcome x y h = enterBackoff x.slot h ∨ slotOutcome x y h = keepSlotEntry x h := by
  cases y with
  | void =>
    rw [slotOutcome_void h ha, slotVoid_kept h (by simp [hk]) (by simp [hk])]
    exact .inr (.inr (.inr (.inr rfl)))
  | absent =>
    rw [slotOutcome_absent h ha, hk]
    exact .inr (.inl ⟨_, _, rfl⟩)
  | answered p =>
    rw [slotOutcome_answered h ha, hk]
    cases p with
    | done => exact .inr (.inl ⟨_, _, rfl⟩)
    | stale => exact .inr (.inr (.inl rfl))
    | refused _ => exact .inr (.inr (.inr (.inl rfl)))
    | granted | queued | busy | notWaiting | accept | decline | conflict => exact .inl rfl
  | complete => exact .inl (slotOutcome_complete h)

theorem downgradeOutcome_frame (hk : x.kind = .downgrade)
    (ha : awaitsOutcome x.kind (h.rqt.slot x.slot) = true) (y : BusOutcome) :
    sameBesidesSlot x.slot h (slotOutcome x y h) := by
  obtain he | ⟨c, m, he⟩ | he | he | he := downgradeOutcome_cases h hk ha y
  all_goals rw [he]
  · exact sameBesidesSlot_refl h _
  · exact endHolding_sameBesidesSlot h _ c m
  · exact endWithoutHold_sameBesidesSlot h _ _ _ _
  · exact enterBackoff_sameBesidesSlot h _
  · exact keepSlotEntry_sameBesidesSlot h (by simp [hk])

/-- Settles O35: each outcome through what the end with a hold, the end without one, a backoff and a kept entry
write. -/
theorem downgradeOutcomes : Obligations.DowngradeOutcomes := by
  unfold Obligations.DowngradeOutcomes
  intro c s x y q hb hk n r hstate habort hq hop _ _
  obtain ⟨record, mbu, responses, hexec⟩ := exec_bringsOutcome hb (by simp [hk, Kind.isSlot])
  have ha : awaitsOutcome x.kind ((delivered record mbu responses s.hw).rqt.slot x.slot) = true :=
    awaitsOutcome_onBus (by simp [hk]) hstate habort
  obtain ⟨hothers, hhtu, hscu, hport⟩ := downgradeOutcome_frame _ hk ha y
  refine ⟨_, hexec, hothers, hhtu, hscu, hport, ?done, ?stale, ?rebuilding, ?absent, ?void⟩
  case done =>
    rintro rfl
    rw [slotOutcome_answered _ ha, hk]
    exact endHolding_writes _ x.slot .downgraded .shared hq hop (by simp)
  case stale =>
    rintro rfl
    rw [slotOutcome_answered _ ha, hk]
    exact endWithoutHold_writes _ x.slot .holdLost .none none hq hop (by simp)
  case rebuilding =>
    rintro rfl
    rw [slotOutcome_answered _ ha, hk]
    exact ⟨slot_setSlot_same _ _ _, rfl, rfl⟩
  case absent =>
    rintro rfl
    rw [slotOutcome_absent _ ha, hk]
    exact endHolding_writes _ x.slot .homeAbsent .exclusive hq hop (by simp)
  case void =>
    rintro rfl
    rw [slotOutcome_void _ ha]
    exact slotVoid_writes _ (by simp [hk]) (by simp [hk])

end Sys2Proof.Machine
end

section
/-! The checks of a slot command (R75): each command as its checks and what follows them, and what follows them leaves
the slot's refusal code alone. -/

namespace Sys2Proof.Machine

variable (h : Hw) (n : SlotId)

/-! ### What leaves a slot's refusal code alone -/

@[simp] theorem endOperation_refusal (c : ResultCode) (d : ResultDetail) (m : Option Mode) :
    ((endOperation n c d m h).rqt.slot n).refusal = (h.rqt.slot n).refusal := by
  unfold endOperation
  split <;> simp

@[simp] theorem endAcquire_refusal (c : ResultCode) (d : ResultDetail) :
    ((endAcquire n c d h).rqt.slot n).refusal = (h.rqt.slot n).refusal := by
  simp [endAcquire]

@[simp] theorem endRelease_refusal (d : ResultDetail) :
    ((endRelease n d h).rqt.slot n).refusal = (h.rqt.slot n).refusal := by
  simp [endRelease]

@[simp] theorem issueOperation_refusal :
    ((issueOperation n h).rqt.slot n).refusal = (h.rqt.slot n).refusal := by
  unfold issueOperation
  split
  · rfl
  · split <;> simp

@[simp] theorem issueCancel_refusal (c : CancelCause) :
    ((issueCancel n c h).rqt.slot n).refusal = (h.rqt.slot n).refusal := by
  unfold issueCancel
  split
  · rfl
  · dsimp only
    split <;> simp

@[simp] theorem recordOperation_refusal (o : Operation) :
    ((recordOperation n o h).rqt.slot n).refusal = (h.rqt.slot n).refusal := by
  simp [recordOperation]

@[simp] theorem reserveAndIssue_refusal (l : LockId) (m : Mode) (limit : BitVec 16) :
    ((reserveAndIssue n l m limit h).rqt.slot n).refusal = (h.rqt.slot n).refusal := by
  simp [reserveAndIssue]

theorem takeAcquire_refusal (l : LockId) (m : Mode) (tryFlag : Bool) :
    ((takeAcquire n l m tryFlag h).rqt.slot n).refusal = (h.rqt.slot n).refusal := by
  unfold takeAcquire
  dsimp only
  split
  · simp
  · split <;> simp

theorem takeRelease_refusal (l : LockId) :
    ((takeRelease n l h).rqt.slot n).refusal = (h.rqt.slot n).refusal := by
  unfold takeRelease
  dsimp only
  split
  · simp
  · split <;> simp

theorem takeDowngrade_refusal (l : LockId) :
    ((takeDowngrade n l h).rqt.slot n).refusal = (h.rqt.slot n).refusal := by
  unfold takeDowngrade
  dsimp only
  split
  · simp
  · split
    · simp
    · split <;> simp

/-- A cancel requested leaves the code, in each state of the slot (R79, R89). -/
theorem requestCancel_refusal (c : CancelCause) :
    ((requestCancel n c h).rqt.slot n).refusal = (h.rqt.slot n).refusal := by
  unfold requestCancel
  dsimp only
  cases (h.rqt.slot n).state with
  | queuedOut => dsimp only; split <;> simp [endCancelled]
  | onBus => simp
  | backoff => simp [endCancelled]
  | waiting => dsimp only; split <;> simp
  | idle | cancelling | done => rfl

/-! ### The checks -/

theorem stationReady_iff : stationReady h = true ↔
    (h.scu.station = .rebuilding ∨ h.scu.station = .online) ∧ h.scu.flushing = false := by
  simp [stationReady]

/-- Check 4 of R75: an ACQUIRE with no cancel under way. -/
theorem cancellable_iff (r : SlotRecord) : cancellable r = true ↔ r.hasOp .acquire = true ∧
    (r.state = .queuedOut ∨ r.state = .backoff
      ∨ ((r.state = .waiting ∨ r.state = .onBus) ∧ r.cause = none)) := by
  unfold cancellable
  cases r.state <;> simp

/-- A command with its fields in range passes through checks 2 and 3 of R75 in their order, and, taken, leaves the code
NONE. -/
structure CheckedInOrder (n : SlotId) (command : Hw → Hw) (h : Hw) : Prop where
  notReady : stationReady h = false → command h = refuse n .stationNotReady h
  busy : stationReady h = true → (h.rqt.slot n).state ≠ .idle → command h = refuse n .slotBusy h
  taken : stationReady h = true → (h.rqt.slot n).state = .idle → ((command h).rqt.slot n).refusal = .none

/-- Checks 2 and 3 before an operation that leaves the refusal code alone (R75). -/
theorem whenIdle_checked {f : Hw → Hw} (hf : ∀ g, ((f g).rqt.slot n).refusal = (g.rqt.slot n).refusal) :
    CheckedInOrder n (whenIdle n f) h := by
  refine ⟨fun hr => ?_, fun hr hs => ?_, fun hr hs => ?_⟩
  · simp [whenIdle, hr]
  · simp [whenIdle, hr, hs]
  · simp [whenIdle, hr, hs, hf, refuse]

theorem acquireCommand_checked {m : BitVec 2} {l : BitVec 13} (f : Bool) (hm : modeField m ≠ none)
    (hl : lockField l ≠ none) : CheckedInOrder n (acquireCommand n m f l) h := by
  obtain ⟨mode, hm⟩ := Option.ne_none_iff_exists'.mp hm
  obtain ⟨lock, hl⟩ := Option.ne_none_iff_exists'.mp hl
  have he : acquireCommand n m f l = whenIdle n (takeAcquire n lock mode f) := by
    funext g
    simp [acquireCommand, hm, hl]
  exact he ▸ whenIdle_checked h n fun g => takeAcquire_refusal g n lock mode f

theorem releaseCommand_checked {l : BitVec 13} (hl : lockField l ≠ none) :
    CheckedInOrder n (releaseCommand n l) h := by
  obtain ⟨lock, hl⟩ := Option.ne_none_iff_exists'.mp hl
  have he : releaseCommand n l = whenIdle n (takeRelease n lock) := by
    funext g
    simp [releaseCommand, hl]
  exact he ▸ whenIdle_checked h n fun g => takeRelease_refusal g n lock

theorem downgradeCommand_checked {l : BitVec 13} (hl : lockField l ≠ none) :
    CheckedInOrder n (downgradeCommand n l) h := by
  obtain ⟨lock, hl⟩ := Option.ne_none_iff_exists'.mp hl
  have he : downgradeCommand n l = whenIdle n (takeDowngrade n lock) := by
    funext g
    simp [downgradeCommand, hl]
  exact he ▸ whenIdle_checked h n fun g => takeDowngrade_refusal g n lock

/-- Check 1 of R75 at an ACQUIRE: a mode or a lock out of range. -/
theorem acquireCommand_bad {m : BitVec 2} {l : BitVec 13} (f : Bool)
    (hb : modeField m = none ∨ lockField l = none) : acquireCommand n m f l h = refuse n .badCommand h := by
  unfold acquireCommand
  split
  · simp_all
  · rfl

theorem releaseCommand_bad {l : BitVec 13} (hl : lockField l = none) :
    releaseCommand n l h = refuse n .badCommand h := by
  simp [releaseCommand, hl]

theorem downgradeCommand_bad {l : BitVec 13} (hl : lockField l = none) :
    downgradeCommand n l h = refuse n .badCommand h := by
  simp [downgradeCommand, hl]

theorem cancelCommand_notReady (hr : stationReady h = false) :
    cancelCommand n h = refuse n .stationNotReady h := by
  simp [cancelCommand, hr]

theorem cancelCommand_nothing (hr : stationReady h = true) (hc : cancellable (h.rqt.slot n) = false) :
    cancelCommand n h = refuse n .nothingToCancel h := by
  simp [cancelCommand, hr, hc]

theorem cancelCommand_taken_refusal (hr : stationReady h = true) (hc : cancellable (h.rqt.slot n) = true) :
    ((cancelCommand n h).rqt.slot n).refusal = .none := by
  simp [cancelCommand, hr, hc, requestCancel_refusal, refuse]

/-! ### The commands at the port -/

variable {s : State} (hp : s.hw.port.porAsserted = false)
include hp

theorem acts_atPort (f : Hw → Hw) : acts (atPort f) s = .next { s with hw := f s.hw } := by
  rw [acts_eq, atPort_released s.hw hp]

theorem exec_acquire (m : BitVec 2) (f : Bool) (l : BitVec 13) :
    exec (.acquire n m f l) s = .next { s with hw := acquireCommand n m f l s.hw } := acts_atPort hp _

theorem exec_release (l : BitVec 13) :
    exec (.release n l) s = .next { s with hw := releaseCommand n l s.hw } := acts_atPort hp _

theorem exec_downgrade (l : BitVec 13) :
    exec (.downgrade n l) s = .next { s with hw := downgradeCommand n l s.hw } := acts_atPort hp _

theorem exec_cancel : exec (.cancel n) s = .next { s with hw := cancelCommand n s.hw } := acts_atPort hp _

theorem exec_slotCommandInvalid (code : BitVec 3) :
    exec (.slotCommandInvalid n code) s = .next { s with hw := refuse n .badCommand s.hw } := acts_atPort hp _

theorem stationReady_iff_slotsReady : stationReady s.hw = true ↔ slotsReady s := by
  simp [stationReady_iff, hp]

omit hp

/-- Settles O11: the checks of each command, one after another. -/
theorem slotCommandChecks : Obligations.SlotCommandChecks := by
  unfold Obligations.SlotCommandChecks
  intro s n hp
  simp only [exec_acquire n hp, exec_release n hp, exec_downgrade n hp, exec_cancel n hp,
    exec_slotCommandInvalid n hp, ← stationReady_iff_slotsReady hp, ← cancellable_iff, Bool.not_eq_true]
  refine ⟨fun _ => rfl, fun m f l hb => ?badAcquire, fun l hl => ?badLock, fun hr => ?notReady, fun hr => ?ready⟩
  case badAcquire => rw [acquireCommand_bad _ n f hb]; rfl
  case badLock => rw [releaseCommand_bad _ n hl, downgradeCommand_bad _ n hl]; exact ⟨rfl, rfl⟩
  case notReady =>
    refine ⟨fun m f l hm hl => ?_, fun l hl => ?_, ?_⟩
    · rw [(acquireCommand_checked _ n f hm hl).notReady hr]; rfl
    · rw [(releaseCommand_checked _ n hl).notReady hr, (downgradeCommand_checked _ n hl).notReady hr]
      exact ⟨rfl, rfl⟩
    · rw [cancelCommand_notReady _ n hr]; rfl
  case ready =>
    refine ⟨fun hs => ⟨fun m f l hm hl => ?_, fun l hl => ?_⟩, fun hs l hl => ⟨fun m f hm => ?_, ?_, ?_⟩,
      fun hc => ?_, fun hc => ?_⟩
    · rw [(acquireCommand_checked _ n f hm hl).busy hr hs]; rfl
    · rw [(releaseCommand_checked _ n hl).busy hr hs, (downgradeCommand_checked _ n hl).busy hr hs]
      exact ⟨rfl, rfl⟩
    · exact ⟨_, rfl, (acquireCommand_checked _ n f hm hl).taken hr hs⟩
    · exact ⟨_, rfl, (releaseCommand_checked _ n hl).taken hr hs⟩
    · exact ⟨_, rfl, (downgradeCommand_checked _ n hl).taken hr hs⟩
    · rw [cancelCommand_nothing _ n hr hc]; rfl
    · exact ⟨_, rfl, cancelCommand_taken_refusal _ n hr hc⟩

end Sys2Proof.Machine
end

section
/-! The commands as effects on the hardware: what each does is one function of it, and the step runs that function or makes
a tick. From it the queue law of the commands (O1, O2), the ignored writes (O19) and the induction over steps that the laws
of the state use. -/

namespace Sys2Proof.Machine

/-- What a command does to the hardware: the function its row acts with. -/
def effect : Instr → Hw → Hw
  | .powerOnReset id bpsel => powerOnReset id bpsel
  | .porNRelease id bpsel => releasePor id bpsel
  | .stationReset => assertSrst
  | .srstNRelease => releaseSrst
  | .crstN => fallCrst
  | .join => atPort joinCommand
  | .leave => atPort leaveCommand
  | .flush => atPort flushCommand
  | .reset => atPort (stationReset .taken)
  | .stationCommandInvalid _ => atPort (setStatus .wrongState)
  | .acquire n m f l => atPort (acquireCommand n m f l)
  | .release n l => atPort (releaseCommand n l)
  | .downgrade n l => atPort (downgradeCommand n l)
  | .cancel n => atPort (cancelCommand n)
  | .slotCommandInvalid n _ => atPort (refuse n .badCommand)
  | .slotParameterWrite n w => atPort (writeParameter n w)
  | .queueHeadRead be => queueRead be
  | .configurationWrite r w => atPort (configWrite r w)
  | .portWriteIgnored _ _ _ => id
  | .arbitration pl nl => arbitrate pl nl
  | .requestPhase a b => readRequestPhase a b
  | .observationPhase o => startObservation o
  | .observationClose o => closeObservation o
  | .responsePhase o => readResponsePhase o
  | .completion o ef => completeTransaction o ef
  | .lockTransactionClaim => takeEngaged
  | .selfHomedRequest => takeArrived Claim.isSelfRequest
  | .selfHomedResponse n => takeSlotResponse n
  | .grantOutcome => takeArrived Claim.isGrantOutcome
  | .internalGrantOutcome => takeArrived Claim.isInternalOutcome
  | .purgeCause => takeArrived Claim.isPurgeCause
  | .purgeEnd => finishPurge
  | .waitTimerExpiry n => waitExpiry n
  | .backoffTimerExpiry n => backoffExpiry n
  | .beaconTimerExpiry => beaconExpiry
  | .silenceTimerExpiry p ef => silenceExpiry p ef
  | .listenWindowExpiry => listenExpiry
  | .rebuildTimerExpiry => rebuildExpiry
  | .notifyPulse k => pulseEnd k

/-- Every command acts by its effect, and leaves the queue of commands alone. -/
theorem exec_eq (c : Instr) (s : State) : exec c s = .next { s with hw := effect c s.hw } := by
  cases c <;> rfl

/-- What a step can do to the hardware: a tick, or the effect of one command. -/
theorem step_hw {s t : State} (h : step s = .next t) : t.hw = tickHw s.hw ∨ ∃ c, t.hw = effect c s.hw := by
  unfold step at h
  split at h
  · obtain rfl := Host.Outcome.next.inj h
    exact .inl rfl
  · next c rest _ =>
    rw [exec_eq] at h
    obtain rfl := Host.Outcome.next.inj h
    exact .inr ⟨c, rfl⟩

/-- A law of the hardware that the tick and every command keep is one every step keeps. -/
theorem step_keeps {P : Hw → Prop} {s t : State} (htick : P (tickHw s.hw)) (heff : ∀ c, P (effect c s.hw))
    (h : step s = .next t) : P t.hw := by
  obtain ht | ⟨c, ht⟩ := step_hw h
  · exact ht ▸ htick
  · exact ht ▸ heff c

/-- Settles O1: the step's equation at a queue with a front. -/
theorem stepRunsFrontCommand : Obligations.StepRunsFrontCommand := fun _ _ _ => rfl

/-- Settles O2, by the effect of each command. -/
theorem commandsLeaveTheQueue : Obligations.CommandsLeaveTheQueue := fun c s => ⟨effect c s.hw, exec_eq c s⟩

/-- A write that is narrow or to a register no write is taken by is an ignored one (R167). -/
theorem portWrite_ignored {a : BitVec 10} {be : BitVec 4} {w : Word}
    (h : be ≠ 15 ∨ (registerAt a).writable = false) : portWrite a be w = .portWriteIgnored a be w := by
  unfold portWrite
  by_cases hb : be = 15
  · have hw : (registerAt a).writable = false := h.resolve_left (not_not_intro hb)
    rw [if_neg (not_not_intro hb)]
    cases hr : registerAt a <;> simp_all [Register.writable]
  · exact if_pos hb

/-- Settles O19: an ignored write acts by the identity, and POR_N holds the port. -/
theorem ignoredWrites : Obligations.IgnoredWrites := by
  unfold Obligations.IgnoredWrites
  refine ⟨fun _ _ _ _ => rfl, fun s hp => ?_, fun _ _ _ h => portWrite_ignored h⟩
  have held : ∀ f, Host.Outcome.next (φ := Fault) (ρ := Refusal) { s with hw := atPort f s.hw } = .next s := by
    intro f
    rw [atPort_held s.hw hp]
  refine ⟨?_, fun _ => held _, fun _ _ _ _ => held _, fun _ _ => ⟨held _, held _⟩, fun _ => held _,
    fun _ _ => held _, fun _ _ => held _, fun _ _ => held _⟩
  intro c hc
  simp only [List.mem_cons, List.not_mem_nil, or_false] at hc
  rcases hc with rfl | rfl | rfl | rfl
  all_goals exact held _

end Sys2Proof.Machine
end

section
/-! The resets, the pins and the station commands (R131, R132, R147, R151, R152, R154, R155, R179, R180). -/

namespace Sys2Proof.Machine

variable (h : Hw)

/-! ### Values after a reset -/

@[simp] theorem get_replicate {α : Type} {k : Nat} (a : α) (i : Fin k) : (Vector.replicate k a).get i = a := by
  simp [get_eq_getElem]

@[simp] theorem slot_reset (n : SlotId) : Rqt.reset.slot n = .reset := by
  simp [Rqt.slot, Rqt.reset]

@[simp] theorem member_reset (p : StationId) : Mbu.reset.member p = ⟨.absent, none⟩ := by
  simp [Mbu.member, Mbu.reset]

/-- No line is asserted with the queue empty and every line's own state at its reset value (R107, R108). -/
theorem lineAsserted_of_reset (hc : h.cqu = .reset) (k : LineId) : lineAsserted h k = false := by
  unfold lineAsserted
  rw [hc]
  split <;> simp [Cqu.reset]

/-- A station whose blocks are reset and that is OFFLINE has the values of a station reset. -/
theorem stationResetValues_of (hs : h.scu.station = .offline ∧ h.scu.flushing = false ∧ h.scu.frozen = false
      ∧ h.scu.listenTimer = none ∧ h.scu.configStatus = .none)
    (hl : h.lbc = .reset) (ht : h.htu = .reset) (hr : h.rqt = .reset) (hm : h.mbu = .reset) (hc : h.cqu = .reset) :
    h.stationResetValues := by
  obtain ⟨hst, hf, hz, hli, hco⟩ := hs
  have hlines := lineAsserted_of_reset h hc
  refine ⟨⟨hst, by rw [Hw.home, hst]; rfl, hf, hz, hli, hco⟩, ?_, ?_, ?_, ?_, ?_⟩
  · rw [hl]; exact ⟨rfl, rfl, rfl, rfl⟩
  · rw [ht]; simp [Htu.inactive, Htu.reset]
  · rw [hr]; simp [Rqt.slotsReset, SlotRecord.reset, SlotRecord.idleWith]; simp [Rqt.reset]
  · rw [hm]; simp; exact ⟨rfl, rfl⟩
  · simp only [hlines]; rw [hc]; simp [Cqu.reset, Cqu.notice]

theorem stationReset_values (c : CommandStatus) : (stationReset c h).stationResetValues :=
  stationResetValues_of _ ⟨rfl, rfl, rfl, rfl, rfl⟩ rfl rfl rfl rfl rfl

theorem powerOnReset_values (id : StationId) (bp : Fin 4) : (powerOnReset id bp h).stationResetValues :=
  stationResetValues_of _ ⟨rfl, rfl, rfl, rfl, rfl⟩ rfl rfl rfl rfl rfl

theorem scuReset_defaults (id : StationId) (bp : Fin 4) : (Scu.reset id bp).configDefaults := by
  simp [Scu.configDefaults, Scu.reset]

theorem stationReset_sameConfig (c : CommandStatus) : (stationReset c h).scu.sameConfig h.scu :=
  ⟨rfl, rfl, rfl, rfl, rfl, rfl, rfl, rfl⟩

/-- The laws of the reset state: each is about empty tables and a station that is OFFLINE. -/
theorem resetState_laws :
    holdTableLaw State.reset.hw.rqt.holds ∧ stationLaw State.reset.hw ∧ countLaw State.reset.hw
      ∧ homeLaw State.reset.hw ∧ queueLaw State.reset.hw ∧ walkerLaw State.reset.hw
      ∧ capacityLaw State.reset.hw ∧ offerLaw State.reset.hw ∧ clientLaw State.reset.hw := by
  refine ⟨empty_holdTableLaw, ?station, ?count, ?home, ?queue, ?walker, ?capacity, ?offer, ?client⟩
  case station => simp [stationLaw, State.reset, Scu.reset, Htu.reset, Lbc.reset]
  case count => simp [countLaw, State.reset, Htu.reset, Rqt.reset, Cqu.reset]
  case home =>
    simp [homeLaw, exclusiveLaw, engagementLaw, expiryOnce, State.reset, Htu.reset, Lbc.reset]
  case queue =>
    have hslot : ∀ n, State.reset.hw.rqt.slot n = .reset := slot_reset
    refine ⟨fun n => ⟨by simp [State.reset, Cqu.reset], by simp [State.reset, Cqu.reset], ?_⟩, ?_, ?_, ?_, ?_, ?_⟩
    · simp [State.reset, Cqu.reset, Cqu.notice]
    · simp [State.reset, Cqu.reset]
    · simp [hslot, SlotRecord.reset, SlotRecord.idleWith]
    · simp [hslot, SlotRecord.reset, SlotRecord.idleWith]
    · simp [hslot, SlotRecord.reset, SlotRecord.idleWith]
    · simp [State.reset, Lbc.reset, entryOnBus]
  case walker => simp [walkerLaw, State.reset, Rqt.reset]
  case capacity => simp [capacityLaw, State.reset, Htu.reset]
  case offer => simp [offerLaw, headWaiter, State.reset, Htu.reset]
  case client => simp [clientLaw, clientOnce, State.reset, Htu.reset]

/-- Settles O4: the values a station reset gives, and the laws over empty tables. -/
theorem resetStateValuesAndLaws : Obligations.ResetStateValuesAndLaws :=
  ⟨stationResetValues_of _ ⟨rfl, rfl, rfl, rfl, rfl⟩ rfl rfl rfl rfl rfl, scuReset_defaults 0 0, rfl, rfl,
    resetState_laws⟩

/-- Settles O6: the two pins by what each asserts and releases. -/
theorem resetPins : Obligations.ResetPins := by
  unfold Obligations.ResetPins
  refine ⟨fun s => ⟨⟨_, exec_eq _ s, ?_, stationReset_sameConfig _ _, rfl, rfl⟩, rfl⟩, fun id bp s => ⟨fun hp => ?_, fun hp => ?_⟩⟩
  · exact stationResetValues_of _ ⟨rfl, rfl, rfl, rfl, rfl⟩ rfl rfl rfl rfl rfl
  · simp [exec_eq, effect, releasePor, hp]
  · simp [exec_eq, effect, releasePor, hp]

/-! ### Station commands -/

theorem mayFlush_iff : mayFlush h = true ↔
    (h.scu.station = .rebuilding ∨ h.scu.station = .online) ∧ h.scu.flushing = false := by
  simp [mayFlush]

theorem joinCommand_taken (hc : h.scu.station = .offline ∧ h.port.srstAsserted = false) :
    joinCommand h = takeJoin h := by
  simp [joinCommand, hc]

theorem joinCommand_refused (hc : ¬(h.scu.station = .offline ∧ h.port.srstAsserted = false)) :
    joinCommand h = setStatus .wrongState h := by
  simp only [joinCommand, Bool.not_eq_true, hc, if_false]

theorem leaveCommand_taken (hc : h.scu.station = .rebuilding ∨ h.scu.station = .online) :
    leaveCommand h = takeLeave h := if_pos hc

theorem leaveCommand_refused (hc : ¬(h.scu.station = .rebuilding ∨ h.scu.station = .online)) :
    leaveCommand h = setStatus .wrongState h := if_neg hc

theorem flushCommand_taken (hc : mayFlush h = true) : flushCommand h = startFlush (setStatus .taken h) := if_pos hc

theorem flushCommand_refused (hc : ¬mayFlush h = true) : flushCommand h = setStatus .wrongState h := if_neg hc

@[simp] theorem startFlush_scu : (startFlush h).scu = { h.scu with flushing := true } := rfl
@[simp] theorem startFlush_htu : (startFlush h).htu = h.htu := rfl
@[simp] theorem startFlush_mbu : (startFlush h).mbu = h.mbu := rfl
@[simp] theorem startFlush_port : (startFlush h).port = h.port := rfl

/-- The seven steps of R155 are those `flushStarted` lists. -/
theorem startFlush_started (s : State) : flushStarted s { s with hw := startFlush s.hw } := by
  have hslot : ∀ n, (startFlush s.hw).rqt.slot n = abortSlot s.hw.id (s.hw.rqt.slot n) :=
    fun n => slot_mapSlots (abortSlot s.hw.id) s.hw.rqt n
  refine ⟨rfl, fun n hi => ?_, fun n hi => ?_, rfl, fun n => ?_, rfl, rfl, rfl, ?_, ?_, rfl, rfl, rfl, rfl, rfl,
    rfl, rfl⟩
  · simp [hslot, abortSlot, hi]
  · simp [hslot, abortSlot, hi]
  · simp [startFlush, Cqu.notice, Cqu.flush]
  · rfl
  · rfl

/-- A flush started from a state that differs only outside the tracker, the lists and the queue. -/
theorem startFlush_started_of {s : State} {g : Hw} (hid : g.id = s.hw.id) (hl : g.lbc = s.hw.lbc)
    (hr : g.rqt = s.hw.rqt) (hc : g.cqu = s.hw.cqu) : flushStarted s { s with hw := startFlush g } := by
  have := startFlush_started { s with hw := g }
  simpa only [flushStarted, hid, hl, hr, hc] using this

/-- A LEAVE taken goes LEAVING and ends the rebuild (R147), whatever the flush does. -/
theorem takeLeave_scu : (takeLeave h).scu =
    { h.scu with station := .leaving, commandStatus := .taken, flushing := true } := by
  unfold takeLeave
  dsimp only
  split
  · next hf => simp [hf]
  · rfl

theorem takeLeave_htu : (takeLeave h).htu = { h.htu with awaited := 0, rebuildTimer := none } := by
  unfold takeLeave
  dsimp only
  split <;> rfl

theorem takeLeave_flushing (hf : h.scu.flushing = true) : takeLeave h =
    { h with
      scu := { h.scu with station := .leaving, commandStatus := .taken }
      htu := { h.htu with awaited := 0, rebuildTimer := none } } := if_pos hf

theorem takeLeave_starts (hf : h.scu.flushing = false) : takeLeave h = startFlush
    { h with
      scu := { h.scu with station := .leaving, commandStatus := .taken }
      htu := { h.htu with awaited := 0, rebuildTimer := none } } := by
  simp [takeLeave, hf]

variable {s : State}

theorem exec_join (hp : s.hw.port.porAsserted = false) : exec .join s = .next { s with hw := joinCommand s.hw } :=
  acts_atPort hp _

theorem exec_leave (hp : s.hw.port.porAsserted = false) :
    exec .leave s = .next { s with hw := leaveCommand s.hw } := acts_atPort hp _

theorem exec_flush (hp : s.hw.port.porAsserted = false) :
    exec .flush s = .next { s with hw := flushCommand s.hw } := acts_atPort hp _

theorem exec_reset (hp : s.hw.port.porAsserted = false) :
    exec .reset s = .next { s with hw := stationReset .taken s.hw } := acts_atPort hp _

/-- Settles O7: each command taken or refused by the station's state. -/
theorem stationCommandsByState : Obligations.StationCommandsByState := by
  unfold Obligations.StationCommandsByState
  refine ⟨fun s hp => ?_, fun s => ⟨_, exec_eq _ s, rfl⟩, fun id bp s => ⟨_, exec_eq _ s, rfl⟩⟩
  simp only [exec_join hp, exec_leave hp, exec_flush hp, exec_reset hp, ← mayFlush_iff]
  refine ⟨fun hc => ⟨_, rfl, ?_⟩, fun hc => ?_, fun hc => ⟨_, rfl, ?_⟩, fun hc => ?_, fun hc => ⟨_, rfl, ?_⟩,
    fun hc => ?_, ⟨_, rfl, stationReset_values _ _, rfl, stationReset_sameConfig _ _, rfl⟩,
    fun _ => acts_atPort hp _⟩
  · rw [joinCommand_taken _ hc]; exact ⟨rfl, rfl⟩
  · rw [joinCommand_refused _ hc]; rfl
  · rw [leaveCommand_taken _ hc, takeLeave_scu]; exact ⟨rfl, rfl⟩
  · rw [leaveCommand_refused _ hc]; rfl
  · rw [flushCommand_taken _ hc]; exact ⟨rfl, rfl⟩
  · rw [flushCommand_refused _ hc]; rfl

/-- Settles O8, field by field of what a JOIN taken writes. -/
theorem joinStartsListening : Obligations.JoinStartsListening := by
  unfold Obligations.JoinStartsListening
  intro s hp hr ho
  refine ⟨_, exec_join hp, ?_⟩
  rw [joinCommand_taken _ ⟨ho, hr⟩]
  refine ⟨rfl, rfl, ?_, fun p hne => ?_, rfl, rfl, rfl, rfl, rfl, rfl, rfl⟩
  · exact member_setMember_same s.hw s.hw.id _
  · exact member_setMember_ne s.hw (Ne.symm hne) _

/-- Settles O9: LEAVING in both cases, and the flush started where none runs. -/
theorem leaveStartsLeaving : Obligations.LeaveStartsLeaving := by
  unfold Obligations.LeaveStartsLeaving
  intro s hp hst
  refine ⟨_, exec_leave hp, ?_⟩
  rw [leaveCommand_taken _ hst]
  refine ⟨takeLeave_scu _, ?_, takeLeave_htu _, ?_, ?_, fun hf => ?_, fun hf => ?_⟩
  · rw [Hw.home, takeLeave_scu]; rfl
  · cases hf : s.hw.scu.flushing
    · rw [takeLeave_starts _ hf]; rfl
    · rw [takeLeave_flushing _ hf]
  · cases hf : s.hw.scu.flushing
    · rw [takeLeave_starts _ hf]; rfl
    · rw [takeLeave_flushing _ hf]
  · rw [takeLeave_flushing _ hf]; exact ⟨rfl, rfl, rfl⟩
  · rw [takeLeave_starts _ hf]; exact startFlush_started_of rfl rfl rfl rfl

/-- Settles O10: both ways a flush starts make the seven steps. -/
theorem flushStart : Obligations.FlushStart := by
  unfold Obligations.FlushStart
  simp only [← mayFlush_iff]
  refine ⟨fun s hn => ?_, fun s hst hf c hc => ?_⟩
  · simp [exec_eq, effect, fallCrst, hn]
  · have hm : mayFlush s.hw = true := (mayFlush_iff s.hw).mpr ⟨hst, hf⟩
    obtain rfl | ⟨rfl, hp⟩ := hc
    · refine ⟨_, exec_eq _ s, ?_⟩
      have he : effect .crstN s.hw = startFlush s.hw := if_pos hm
      rw [he]
      exact ⟨rfl, startFlush_started s, rfl, rfl, rfl⟩
    · refine ⟨_, exec_flush hp, ?_⟩
      rw [flushCommand_taken _ hm]
      exact ⟨rfl, startFlush_started_of rfl rfl rfl rfl, rfl, rfl, rfl⟩

end Sys2Proof.Machine
end

section
/-! The tick of 1 µs and the expiries that act on one block alone (R107, R108, R116, R133, 11.4, log 3). -/

namespace Sys2Proof.Machine

variable (h : Hw)

/-! ### The commands due after a tick -/

theorem isDue_iff (t : Option Nat) : isDue t = true ↔ ∃ k ≤ 1, t = some k := by
  cases t <;> simp [isDue]

theorem silenceDue_iff (p : StationId) : silenceDue h p = true ↔
    silenceHeld p h = false ∧ ∃ k, (h.mbu.member p).timer = some k ∧ lossLimit h ≤ k + 1 := by
  cases ht : (h.mbu.member p).timer <;> simp [silenceDue, ht, and_comm]

theorem mem_ite_singleton {α : Type} {a c : α} {b : Bool} : a ∈ (if b then [c] else []) ↔ a = c ∧ b = true := by
  cases b <;> simp

/-- The commands due are those of the timers in their last µs, of the silence timers at their limit and of the gaps that
end. -/
theorem mem_dueCommands (c : Instr) : c ∈ dueCommands h ↔
    (c = .listenWindowExpiry ∧ ∃ k ≤ 1, h.scu.listenTimer = some k)
    ∨ (c = .rebuildTimerExpiry ∧ ∃ k ≤ 1, h.htu.rebuildTimer = some k)
    ∨ (c = .beaconTimerExpiry ∧ ∃ k ≤ 1, h.mbu.beaconTimer = some k)
    ∨ (∃ p, c = .silenceTimerExpiry p false ∧ silenceHeld p h = false
        ∧ ∃ k, (h.mbu.member p).timer = some k ∧ lossLimit h ≤ k + 1)
    ∨ (∃ n, c = .waitTimerExpiry n ∧ ∃ k ≤ 1, (h.rqt.slot n).waitTimer = some k)
    ∨ (∃ n, c = .backoffTimerExpiry n ∧ ∃ k ≤ 1, (h.rqt.slot n).backoffTimer = some k)
    ∨ ∃ k, c = .notifyPulse k ∧ (h.cqu.lines.get k).phase = .gap := by
  simp only [dueCommands, List.mem_append, mem_ite_singleton, List.mem_map, List.mem_filter, List.mem_finRange,
    true_and, or_assoc]
  simp only [isDue_iff, silenceDue_iff, decide_eq_true_eq, eq_comm (a := c), and_comm (b := _ = c)]

theorem nodup_ite_singleton {α : Type} (c : α) (b : Bool) : (if b then [c] else []).Nodup := by
  cases b <;> simp

/-- A command for each of some places of a block, each place once. -/
theorem nodup_map_filter {k : Nat} (p : Fin k → Bool) {f : Fin k → Instr} (hf : Function.Injective f) :
    (((List.finRange k).filter p).map f).Nodup :=
  ((List.nodup_finRange k).filter _).map hf

/-- Each command due stands once. -/
theorem nodup_dueCommands : (dueCommands h).Nodup := by
  have hsilence := nodup_map_filter (silenceDue h) (f := fun p => .silenceTimerExpiry p false)
    fun _ _ he => by injection he
  have hwait := nodup_map_filter (fun n => isDue (h.rqt.slot n).waitTimer) (f := .waitTimerExpiry)
    fun _ _ he => by injection he
  have hbackoff := nodup_map_filter (fun n => isDue (h.rqt.slot n).backoffTimer) (f := .backoffTimerExpiry)
    fun _ _ he => by injection he
  have hpulse := nodup_map_filter (fun n => (h.cqu.lines.get n).phase = .gap) (f := .notifyPulse)
    fun _ _ he => by injection he
  unfold dueCommands
  simp only [List.nodup_append, nodup_ite_singleton, hsilence, hwait, hbackoff, hpulse, List.mem_append,
    mem_ite_singleton, List.mem_map, true_and]
  refine ⟨⟨⟨⟨⟨?rebuild, ?beacon⟩, ?silence⟩, ?wait⟩, ?backoff⟩, ?pulse⟩
  case rebuild | beacon =>
    rintro a ha _ ⟨rfl, -⟩ rfl
    simp at ha
  case silence | wait | backoff | pulse =>
    rintro a ha _ ⟨_, -, rfl⟩ rfl
    simp at ha

@[simp] theorem get_map {α β : Type} {k : Nat} (f : α → β) (v : Vector α k) (i : Fin k) :
    (v.map f).get i = f (v.get i) := by
  simp [get_eq_getElem]

/-- Settles O3: the tick writes timers and pulses alone, and queues what is due. -/
theorem idleTickAdvancesTimers : Obligations.IdleTickAdvancesTimers := by
  unfold Obligations.IdleTickAdvancesTimers
  intro s hs
  have hp : (tick s).pending = dueCommands s.hw := by simp [tick, hs]
  refine ⟨tick s, by simp [step, hs], rfl, rfl, rfl, rfl, fun p => ?_, fun n => ?_, rfl,
    ⟨rfl, rfl, rfl, rfl, rfl, rfl⟩, rfl, rfl, rfl, rfl, rfl, fun k => ?_, hp ▸ nodup_dueCommands s.hw, fun c => ?_⟩
  · exact member_mapMembers (fun p m => m.tick (silenceHeld p s.hw)) s.hw.mbu p
  · exact slot_mapSlots SlotRecord.tick s.hw.rqt n
  · show (s.hw.cqu.lines.map Line.tick).get k = _
    rw [get_map, Line.tick]
    split <;> rfl
  · rw [hp, mem_dueCommands]

/-! ### The listen window and the beacon timer -/

/-- Settles O49: the window's end at a station that listens. -/
theorem listenWindowEnds : Obligations.ListenWindowEnds := by
  unfold Obligations.ListenWindowEnds
  intro s hl ht
  simp [exec_eq, effect, listenExpiry, hl, ht, placeNormal]

theorem beaconOut_iff : beaconOut h = true ↔ (∃ x ∈ h.lbc.normal, x.kind = .beacon)
    ∨ ∃ r x, h.lbc.record = some r ∧ r.entry = some x ∧ x.kind = .beacon := by
  cases hr : h.lbc.record with
  | none => simp [beaconOut, entryOnBus, hr]
  | some r => cases he : r.entry <;> simp [beaconOut, entryOnBus, hr, he]

/-- The beacon timer's expiry places at most a BEACON, and runs on (R116). -/
theorem beaconExpiry_eq (ht : h.mbu.beaconTimer.isSome = true) : beaconExpiry h =
    { h with
      lbc := if h.mbu.wonMark = false ∧ ¬beaconOut h = true then (placeNormal { kind := .beacon } h).lbc else h.lbc
      mbu := { h.mbu with wonMark := false, beaconTimer := some h.period } } := by
  unfold beaconExpiry
  simp only [ht, if_true, Bool.not_eq_true]
  split <;> rfl

/-- Settles O47: a BEACON placed or not, and the timer on. -/
theorem beaconTimerExpiry : Obligations.BeaconTimerExpiry := by
  unfold Obligations.BeaconTimerExpiry
  intro s ht
  simp only [← beaconOut_iff]
  refine ⟨_, exec_eq _ s, ?_⟩
  have he : effect .beaconTimerExpiry s.hw = _ := beaconExpiry_eq s.hw ht
  rw [he]
  refine ⟨rfl, fun hw hb => ?_, fun hn => ?_, rfl, rfl, rfl, rfl, rfl⟩
  · simp [hw, hb, placeNormal]
  · have : ¬(s.hw.mbu.wonMark = false ∧ ¬beaconOut s.hw = true) := by
      rintro ⟨hw, hb⟩
      exact hn.elim (by simp [hw]) hb
    simp only [this, if_false]

/-! ### Pulses -/

theorem get_setLine_same (c : Cqu) (k : LineId) (l : Line) : (c.setLine k l).lines.get k = l := by
  simp [Cqu.setLine, get_eq_getElem]

theorem get_setLine_ne (c : Cqu) {j k : LineId} (hne : j ≠ k) (l : Line) :
    (c.setLine k l).lines.get j = c.lines.get j := by
  have : k.val ≠ j.val := fun e => hne (Fin.ext e.symm)
  simp [Cqu.setLine, get_eq_getElem, this]

theorem endPulse_phase_high (l : Line) : l.endPulse.phase = .high ↔ 1 < l.owed := by
  have hz : l.owed - 1 = 0 ↔ ¬1 < l.owed := by omega
  unfold Line.endPulse
  split <;> simp_all

theorem endPulse_phase_idle (l : Line) : l.endPulse.phase = .idle ↔ l.owed ≤ 1 := by
  have hz : l.owed - 1 = 0 ↔ l.owed ≤ 1 := by omega
  unfold Line.endPulse
  split <;> simp_all

/-- A PULSE line is asserted exactly in the asserted part of a pulse (R108). -/
theorem lineAsserted_pulse {k : LineId} (hm : h.scu.lineModes.get k = .pulse) :
    lineAsserted h k = true ↔ (h.cqu.lines.get k).phase = .high := by
  simp [lineAsserted, hm]

/-- What the end of a pulse and its gap does to the station (R108). -/
theorem pulseEnd_eq {k : LineId} (hm : h.scu.lineModes.get k = .pulse) (hp : (h.cqu.lines.get k).phase ≠ .idle) :
    pulseEnd k h = { h with cqu := h.cqu.setLine k (h.cqu.lines.get k).endPulse } := if_pos ⟨hm, hp⟩

/-- Settles O51: the end of a pulse by its line, an append by what it does to each line. -/
theorem pulsesOwed : Obligations.PulsesOwed := by
  unfold Obligations.PulsesOwed
  refine ⟨fun s k hm hp => ?_, fun h e => ⟨?_, fun k => ⟨fun hk => ?_, fun hk => ?_⟩⟩⟩
  · refine ⟨_, exec_eq _ s, ?_⟩
    have he : effect (.notifyPulse k) s.hw = _ := pulseEnd_eq s.hw hm hp
    rw [he]
    have hk : (s.hw.cqu.setLine k (s.hw.cqu.lines.get k).endPulse).lines.get k = (s.hw.cqu.lines.get k).endPulse :=
      get_setLine_same _ k _
    have hl : lineAsserted { s.hw with cqu := s.hw.cqu.setLine k (s.hw.cqu.lines.get k).endPulse } k = true ↔ _ :=
      lineAsserted_pulse _ hm
    simp only [hl, hk, endPulse_phase_high, endPulse_phase_idle]
    exact ⟨rfl, trivial, trivial, trivial, fun j hj => get_setLine_ne _ hj _, rfl⟩
  · simp only [appendEntry, Cqu.append, Cqu.markRoute]
    split
    · rfl
    · split <;> rfl
  · have hl := appendEntry_line h e k
    rw [if_pos hk] at hl
    refine ⟨by rw [hl]; rfl, fun hi => ?_, fun hi => by rw [hl]; simp [Line.mark, hi]⟩
    have hh : ((appendEntry e h).cqu.lines.get k).phase = .high := by rw [hl]; simp [Line.mark, hi]
    exact ⟨hh, (lineAsserted_pulse (appendEntry e h) hk.2).mpr hh⟩
  · rw [appendEntry_line, if_neg hk]

end Sys2Proof.Machine
end

section
/-! Slot commands taken, cancels and reissues: an operation ended at once, issued to its home, or cancelled (R76 to R81, R84,
R89). -/

namespace Sys2Proof.Machine

variable (h : Hw) (n : SlotId)

/-! ### Slots -/

@[simp] theorem setSlot_setSlot (r q : SlotRecord) : (h.setSlot n r).setSlot n q = h.setSlot n q := by
  simp [Hw.setSlot, Rqt.setSlot]

/-- A slot's record written back as it stands. -/
theorem setSlot_self : h.setSlot n (h.rqt.slot n) = h := by
  simp [Hw.setSlot, Rqt.setSlot, Rqt.slot, get_eq_getElem]

theorem sameSlotsBut_setSlot (r : SlotRecord) : sameSlotsBut n h.rqt (h.setSlot n r).rqt :=
  fun _ hm => slot_setSlot_ne h (Ne.symm hm) r

theorem sameSlotsBut.trans {q r t : Rqt} (h1 : sameSlotsBut n q r) (h2 : sameSlotsBut n r t) : sameSlotsBut n q t :=
  fun m hm => (h2 m hm).trans (h1 m hm)

theorem sameWalk.trans {q r t : Rqt} (h1 : sameWalk q r) (h2 : sameWalk r t) : sameWalk q t := by
  obtain ⟨a1, a2, a3, a4, a5, a6⟩ := h1
  obtain ⟨b1, b2, b3, b4, b5, b6⟩ := h2
  exact ⟨b1.trans a1, b2.trans a2, b3.trans a3, b4.trans a4, b5.trans a5, b6.trans a6⟩

theorem sameWalk_refl (q : Rqt) : sameWalk q q := ⟨rfl, rfl, rfl, rfl, rfl, rfl⟩

theorem received_eq (c : Claim) (t : Htu) : received c t = t.receive c := rfl

/-! ### Issuing (R80) -/

variable {o : Operation}

theorem issueOperation_self (ho : (h.rqt.slot n).operation = some o) (hh : homeOf o.lock = h.id) :
    issueOperation n h = addClaim (.selfRequest (slotRequest o.op.kind h.id n o))
      (h.setSlot n { h.rqt.slot n with state := .onBus }) := by
  simp [issueOperation, ho, hh]

theorem issueOperation_listed (ho : (h.rqt.slot n).operation = some o) (hh : homeOf o.lock ≠ h.id) :
    issueOperation n h = placeNormal (slotTransaction o.op.kind n o)
      (h.setSlot n { h.rqt.slot n with state := .queuedOut }) := by
  simp [issueOperation, ho, hh]

theorem issueCancel_self (ho : (h.rqt.slot n).operation = some o) (hh : homeOf o.lock = h.id) (c : CancelCause) :
    issueCancel n c h = addClaim (.selfRequest (slotRequest .cancel h.id n o))
      (h.setSlot n { h.rqt.slot n with state := .cancelling, cause := some c, waitTimer := none }) := by
  simp [issueCancel, ho, hh]

theorem issueCancel_listed (ho : (h.rqt.slot n).operation = some o) (hh : homeOf o.lock ≠ h.id) (c : CancelCause) :
    issueCancel n c h = placeNormal (slotTransaction .cancel n o)
      (h.setSlot n { h.rqt.slot n with state := .cancelling, cause := some c, waitTimer := none }) := by
  simp [issueCancel, ho, hh]

theorem issueOperation_others : sameSlotsBut n h.rqt (issueOperation n h).rqt := by
  unfold issueOperation
  split
  · exact fun _ _ => rfl
  · split <;> exact sameSlotsBut_setSlot h n _

theorem issueCancel_others (c : CancelCause) : sameSlotsBut n h.rqt (issueCancel n c h).rqt := by
  unfold issueCancel
  split
  · exact fun _ _ => rfl
  · dsimp only
    split <;> exact sameSlotsBut_setSlot h n _

theorem issueOperation_sameWalk : sameWalk h.rqt (issueOperation n h).rqt := by simp [sameWalk]

theorem issueCancel_sameWalk (c : CancelCause) : sameWalk h.rqt (issueCancel n c h).rqt := by simp [sameWalk]

/-! ### Ending -/

theorem endOperation_sameWalk (c : ResultCode) (d : ResultDetail) (m : Option Mode) :
    sameWalk h.rqt (endOperation n c d m h).rqt := by
  simp [sameWalk]

theorem cancelResult_ne_acquired (c : CancelCause) : cancelResult c ≠ .acquired := by cases c <;> simp [cancelResult]

/-- A cancelled ACQUIRE is an operation ended with its requested mode (R81, R85). -/
theorem endCancelled_eq (ho : (h.rqt.slot n).operation = some o) (c : CancelCause) :
    endCancelled n c h = endOperation n (cancelResult c) .none o.mode h := by
  simp [endCancelled, endAcquire, ho]

/-! ### The rows of a cancel (R79, R89) -/

theorem requestCancel_listed (c : CancelCause) (hs : (h.rqt.slot n).state = .queuedOut)
    (hl : slotEntryListed n h = true) :
    requestCancel n c h = endCancelled n c (removeNormal (isSlotEntry n) h) := by
  simp [requestCancel, hs, hl]

theorem requestCancel_unlisted (c : CancelCause) (hs : (h.rqt.slot n).state = .queuedOut)
    (hl : slotEntryListed n h = false) :
    requestCancel n c h = h.setSlot n { h.rqt.slot n with state := .onBus, cause := some c, waitTimer := none } := by
  simp [requestCancel, hs, hl]

theorem requestCancel_onBus (c : CancelCause) (hs : (h.rqt.slot n).state = .onBus) :
    requestCancel n c h = h.setSlot n { h.rqt.slot n with state := .onBus, cause := some c, waitTimer := none } := by
  simp [requestCancel, hs]

theorem requestCancel_backoff (c : CancelCause) (hs : (h.rqt.slot n).state = .backoff) :
    requestCancel n c h = endCancelled n c h := by
  simp [requestCancel, hs]

theorem requestCancel_accepting (c : CancelCause) (hs : (h.rqt.slot n).state = .waiting)
    (ha : acceptInFlight n h = true) :
    requestCancel n c h = h.setSlot n { h.rqt.slot n with state := .waiting, cause := some c, waitTimer := none } := by
  simp [requestCancel, hs, ha]

theorem requestCancel_waiting (c : CancelCause) (hs : (h.rqt.slot n).state = .waiting)
    (ha : acceptInFlight n h = false) : requestCancel n c h = issueCancel n c h := by
  simp [requestCancel, hs, ha]

/-- What a cancel that ends the slot writes, and what it leaves (R81, R85). -/
theorem endCancelled_writes (ho : (h.rqt.slot n).operation = some o) (c : CancelCause) :
    (endCancelled n c h).rqt.slot n = (h.rqt.slot n).ended
      ∧ (endCancelled n c h).cqu.queue = h.cqu.queue ++ [.result n o.op o.lock o.mode c.result .none]
      ∧ (endCancelled n c h).rqt.holds = withoutReservation n o.lock h.rqt.holds
      ∧ sameSlotsBut n h.rqt (endCancelled n c h).rqt ∧ sameWalk h.rqt (endCancelled n c h).rqt := by
  rw [endCancelled_eq h n ho]
  exact ⟨endOperation_slot h n ho _ _ _, endOperation_queue h n ho _ _ _,
    endOperation_holds h n ho (cancelResult_ne_acquired c) _ _, endOperation_others h n _ _ _,
    endOperation_sameWalk h n _ _ _⟩

/-- A cancel that comes to the slot as its refusal code and wait timer have been written acts by the rows of R79 and
R89. -/
theorem cancelRows_of {c : Instr} {s : State} {cause : CancelCause} {refusal : RefusalCode} {w : Option Nat}
    (ho : (s.hw.rqt.slot n).operation = some o)
    (hex : ((s.hw.rqt.slot n).state = .queuedOut ∨ (s.hw.rqt.slot n).state = .backoff
        ∨ ((s.hw.rqt.slot n).state = .waiting ∨ (s.hw.rqt.slot n).state = .onBus)
          ∧ (s.hw.rqt.slot n).cause = none) →
      exec c s = .next { s with
        hw := requestCancel n cause (s.hw.setSlot n { s.hw.rqt.slot n with waitTimer := w, refusal }) }) :
    cancelRows c s n o cause refusal := by
  have hothers := sameSlotsBut_setSlot s.hw n { s.hw.rqt.slot n with waitTimer := w, refusal }
  have hslot := slot_setSlot_same s.hw n { s.hw.rqt.slot n with waitTimer := w, refusal }
  have hagain := fun q => setSlot_setSlot s.hw n { s.hw.rqt.slot n with waitTimer := w, refusal } q
  have hframe : ∃ g, s.hw.setSlot n { s.hw.rqt.slot n with waitTimer := w, refusal } = g
      ∧ g.lbc = s.hw.lbc ∧ g.htu = s.hw.htu ∧ g.cqu = s.hw.cqu ∧ g.scu = s.hw.scu ∧ g.mbu = s.hw.mbu
      ∧ g.port = s.hw.port ∧ g.rqt.holds = s.hw.rqt.holds ∧ sameWalk s.hw.rqt g.rqt :=
    ⟨_, rfl, rfl, rfl, rfl, rfl, rfl, rfl, rfl, rfl, rfl, rfl, rfl, rfl, rfl⟩
  obtain ⟨g, hg, hlbc, hhtu, hcqu, hscu, hmbu, hport, hholds, hwalk⟩ := hframe
  rw [hg] at hothers hslot hex
  simp only [hg] at hagain
  have hst : (g.rqt.slot n).state = (s.hw.rqt.slot n).state := by rw [hslot]
  have hop : (g.rqt.slot n).operation = some o := by rw [hslot]; exact ho
  have hlisted : slotEntryListed n g = slotEntryListed n s.hw := by simp only [slotEntryListed, hlbc]
  have haccept : acceptInFlight n g = acceptInFlight n s.hw := by simp only [acceptInFlight, hwalk.1]
  have hid : g.id = s.hw.id := by rw [Hw.id, hscu]
  refine ⟨fun hs hl => ?listed, fun hs hl => ?unlisted, fun hs hc => ?onBus, fun hs => ?backoff,
    fun hs hc ha => ?accepting, fun hs hc ha => ?waiting⟩
  case listed =>
    refine ⟨_, hex (.inl hs), ?_⟩
    rw [requestCancel_listed g n cause (hst.trans hs) (hlisted.trans hl)]
    obtain ⟨hslot', hqueue, hholds', hsame, hwalk'⟩ := endCancelled_writes (removeNormal (isSlotEntry n) g) n hop cause
    exact ⟨⟨by rw [hslot', removeNormal_rqt, hslot]; rfl, by rw [hqueue, removeNormal_cqu, hcqu]; cases cause <;> rfl,
      by rw [hholds', removeNormal_rqt, hholds], hothers.trans n hsame, hwalk.trans hwalk', by simp [hhtu],
      by simp [hlbc], by simp [hlbc], by simp [hscu], by simp [hmbu], by simp [hport]⟩, by simp [hlbc]⟩
  case unlisted =>
    rw [hex (.inl hs), requestCancel_unlisted g n cause (hst.trans hs) (hlisted.trans hl), hslot, hagain]
  case onBus =>
    rw [hex (.inr (.inr ⟨.inr hs, hc⟩)), requestCancel_onBus g n cause (hst.trans hs), hslot, hagain]
  case backoff =>
    refine ⟨_, hex (.inr (.inl hs)), ?_⟩
    rw [requestCancel_backoff g n cause (hst.trans hs)]
    obtain ⟨hslot', hqueue, hholds', hsame, hwalk'⟩ := endCancelled_writes g n hop cause
    exact ⟨⟨by rw [hslot', hslot]; rfl, by rw [hqueue, hcqu]; cases cause <;> rfl, by rw [hholds', hholds], hothers.trans n hsame,
      hwalk.trans hwalk', by simp [hhtu], by simp [hlbc], by simp [hlbc], by simp [hscu], by simp [hmbu],
      by simp [hport]⟩, by simp [hlbc]⟩
  case accepting =>
    rw [hex (.inr (.inr ⟨.inl hs, hc⟩)), requestCancel_accepting g n cause (hst.trans hs) (haccept.trans ha), hslot,
      hagain]
  case waiting =>
    refine ⟨_, hex (.inr (.inr ⟨.inl hs, hc⟩)), ?_⟩
    rw [requestCancel_waiting g n cause (hst.trans hs) (haccept.trans ha)]
    refine ⟨?_, fun hh => ?_, fun hh => ?_, hothers.trans n (issueCancel_others g n cause), by simp [hholds],
      hwalk.trans (issueCancel_sameWalk g n cause), by simp [hcqu], by simp [hscu], by simp [hmbu], by simp [hport]⟩
    · by_cases hh : homeOf o.lock = g.id
      · simp [issueCancel_self g n hop hh, hslot]
      · simp [issueCancel_listed g n hop hh, hslot]
    · rw [issueCancel_listed g n hop (hid ▸ hh)]
      simp [hhtu, hlbc, slotTransaction]
    · rw [issueCancel_self g n hop (hid ▸ hh)]
      simp [hhtu, hlbc, hid, received_eq, slotRequest]

/-- Settles O15: a CANCEL that passes its checks is a cancel with cause CLIENT. -/
theorem cancelTaken : Obligations.CancelTaken := by
  unfold Obligations.CancelTaken
  intro s n o hr ho hop
  refine cancelRows_of n (w := (s.hw.rqt.slot n).waitTimer) ho fun hc => ?_
  have hcan : cancellable (s.hw.rqt.slot n) = true := (cancellable_iff _).mpr ⟨by simp [SlotRecord.hasOp, ho, hop], hc⟩
  have hready : stationReady s.hw = true := (stationReady_iff_slotsReady hr.1).mpr hr
  rw [exec_cancel n hr.1]
  simp [cancelCommand, hcan, hready, refuse]

/-- Settles O45: a running wait timer's expiry is a cancel with cause TIMEOUT. -/
theorem waitTimerExpiry : Obligations.WaitTimerExpiry := by
  unfold Obligations.WaitTimerExpiry
  intro s n o
  refine ⟨fun hn => ?_, fun ht ha ho hop => cancelRows_of n (w := none) ho fun _ => ?_⟩
  · have : ¬((s.hw.rqt.slot n).waitTimer.isSome = true ∧ ¬(s.hw.rqt.slot n).aborted = true) := by
      rintro ⟨h1, h2⟩
      exact hn.elim (fun hw => by simp [hw] at h1) h2
    rw [exec_eq, effect, waitExpiry, if_neg this]
  · simp [exec_eq, effect, waitExpiry, ht, ha]

/-- Settles O46: the operation issued again, to its own home or to another's. -/
theorem backoffExpiryReissues : Obligations.BackoffExpiryReissues := by
  unfold Obligations.BackoffExpiryReissues
  intro s n o k m f r hst ht ha ho hop
  have hkind : o.op.kind = k ∧ (if k = .acquire then o.mode.getD .shared else .shared) = m
      ∧ (if k = .acquire then o.tryFlag else false) = f := by
    rcases hop with ⟨h1, rfl, h3, rfl⟩ | ⟨h1, rfl, rfl, rfl⟩
    · simp [h1, Op.kind, h3]
    · simp [h1, Op.kind]
  obtain ⟨hk, hm, hf⟩ := hkind
  have he : effect (.backoffTimerExpiry n) s.hw = issueOperation n (s.hw.setSlot n { r with backoffTimer := none }) :=
    if_pos ⟨hst, ht, by simpa using ha⟩
  have hg : ((s.hw.setSlot n { r with backoffTimer := none }).rqt.slot n).operation = some o := by simpa using ho
  refine ⟨_, exec_eq _ s, ?_⟩
  rw [he]
  refine ⟨fun hh => ?_, fun hh => ?_, (sameSlotsBut_setSlot s.hw n _).trans n (issueOperation_others _ n), by simp, ?_,
    by simp, by simp, by simp, by simp⟩
  · rw [issueOperation_listed _ n hg hh, hk, slotTransaction, hm, hf]
    simp
  · rw [issueOperation_self _ n hg hh, hk, slotRequest, hm, hf]
    exact ⟨by simp, rfl, rfl⟩
  · simp [sameWalk]

/-! ### Commands taken on an IDLE slot (R76 to R78) -/

/-- The station once an operation is recorded in a slot that took a command (R71). -/
def commanded (n : SlotId) (o : Operation) (h : Hw) : Hw := recordOperation n o (refuse n .none h)

theorem commanded_eq : commanded n o h =
    h.setSlot n { h.rqt.slot n with refusal := .none, operation := some o, attempts := 0 } := by
  simp [commanded, recordOperation, refuse]

theorem whenIdle_taken {f : Hw → Hw} (hr : stationReady h = true) (hs : (h.rqt.slot n).state = .idle) :
    whenIdle n f h = f (refuse n .none h) := by
  simp [whenIdle, hr, hs]

/-- An operation recorded and ended at once, with or without its hold entry (R76 to R78, R81). -/
theorem endedAtOnce_of {s : State} {g : Hw} (hg : ∃ holds, g = (commanded n o s.hw).setHolds holds) (c : ResultCode)
    (d : ResultDetail) (m : Option Mode) :
    endedAtOnce s { s with hw := endOperation n c d m g } n o (.result n o.op o.lock m c d) := by
  obtain ⟨holds, rfl⟩ := hg
  have hslot : ((commanded n o s.hw).setHolds holds).rqt.slot n =
      { s.hw.rqt.slot n with refusal := .none, operation := some o, attempts := 0 } := by
    rw [commanded_eq]
    exact slot_setSlot_same s.hw n _
  have ho : (((commanded n o s.hw).setHolds holds).rqt.slot n).operation = some o := by rw [hslot]
  have hothers : sameSlotsBut n s.hw.rqt ((commanded n o s.hw).setHolds holds).rqt := by
    rw [commanded_eq]
    exact sameSlotsBut_setSlot s.hw n _
  refine ⟨?_, hothers.trans n (endOperation_others _ n c d m), by simp [sameWalk, commanded_eq], ?_,
    by simp [commanded_eq], by simp [commanded_eq], by simp [commanded_eq], by simp [commanded_eq],
    by simp [commanded_eq], by simp [commanded_eq], by simp [commanded_eq]⟩
  · rw [endOperation_slot _ n ho, hslot, SlotRecord.ended]
  · rw [endOperation_queue _ n ho]; simp [commanded_eq]

/-- An operation recorded and issued to its home, with a hold entry put or changed and the wait timer set (R76 to R78,
R80). -/
theorem issuedToHome_of {s : State} {g : Hw} {timer : Option Nat}
    (hg : ∃ holds, g = ((commanded n o s.hw).setHolds holds).setSlot n
      { (commanded n o s.hw).rqt.slot n with waitTimer := timer }) :
    issuedToHome s { s with hw := issueOperation n g } n o (slotTransaction o.op.kind n o)
      (slotRequest o.op.kind s.hw.id n o) timer := by
  obtain ⟨holds, rfl⟩ := hg
  generalize hgd : ((commanded n o s.hw).setHolds holds).setSlot n
    { (commanded n o s.hw).rqt.slot n with waitTimer := timer } = g
  have hslot : g.rqt.slot n = { s.hw.rqt.slot n with
      operation := some o, attempts := 0, refusal := .none, waitTimer := timer } := by
    rw [← hgd, commanded_eq]
    simp
  have hframe : g.lbc = s.hw.lbc ∧ g.htu = s.hw.htu ∧ g.cqu = s.hw.cqu ∧ g.scu = s.hw.scu ∧ g.mbu = s.hw.mbu
      ∧ g.port = s.hw.port := by
    rw [← hgd, commanded_eq]
    exact ⟨rfl, rfl, rfl, rfl, rfl, rfl⟩
  obtain ⟨hlbc, hhtu, hcqu, hscu, hmbu, hport⟩ := hframe
  have hothers : sameSlotsBut n s.hw.rqt g.rqt := by
    intro k hk
    rw [← hgd, slot_setSlot_ne _ (Ne.symm hk), commanded_eq]
    exact slot_setSlot_ne s.hw (Ne.symm hk) _
  have ho : (g.rqt.slot n).operation = some o := by rw [hslot]
  have hid : g.id = s.hw.id := by rw [Hw.id, hscu]
  refine ⟨?_, by simp [hlbc], by simp [hlbc], hothers.trans n (issueOperation_others g n), by simp [hcqu],
    by simp [hscu], by simp [hmbu], by simp [hport]⟩
  by_cases hh : homeOf o.lock = s.hw.id
  · have he := issueOperation_self g n ho (hid ▸ hh)
    refine ⟨.onBus, by simp [he, hslot], fun hne => absurd hh hne, fun _ => ⟨rfl, by simp [he, hlbc], ?_⟩⟩
    simp [he, hhtu, hid, received_eq]
  · have he := issueOperation_listed g n ho (hid ▸ hh)
    exact ⟨.queuedOut, by simp [he, hslot], fun _ => ⟨rfl, by simp [he, hlbc], by simp [he, hhtu]⟩,
      fun heq => absurd heq hh⟩

theorem withoutReservation_of_none {l : LockId} {t : List (Nat × Hold)} (hf : findHold n l t = none) :
    withoutReservation n l t = t := by
  simp [withoutReservation, hf]

theorem withoutReservation_of_some {l : LockId} {t : List (Nat × Hold)} {e : Hold} (hf : findHold n l t = some e)
    (he : e.state ≠ .reserved) : withoutReservation n l t = t := by
  simp [withoutReservation, hf, he]

/-- The hold table after an operation that had no hold of its own to lose ends at once. -/
theorem endOperation_commanded_holds {s : State} (c : ResultCode) (d : ResultDetail) (m : Option Mode)
    (hc : c ≠ .acquired) (hw : withoutReservation n o.lock s.hw.rqt.holds = s.hw.rqt.holds) :
    (endOperation n c d m (commanded n o s.hw)).rqt.holds = s.hw.rqt.holds := by
  have ho : ((commanded n o s.hw).rqt.slot n).operation = some o := by simp [commanded_eq]
  have hh : (commanded n o s.hw).rqt.holds = s.hw.rqt.holds := by simp [commanded_eq]
  rw [endOperation_holds _ n ho hc, hh, hw]

theorem setHolds_self : h.setHolds h.rqt.holds = h := rfl

variable {s : State} (hr : slotsReady s) (hs : (s.hw.rqt.slot n).state = .idle)
include hr hs

theorem exec_acquire_taken {mw : BitVec 2} {f : Bool} {lw : BitVec 13} {m : Mode} {l : LockId}
    (hm : modeField mw = some m) (hl : lockField lw = some l) :
    exec (.acquire n mw f lw) s = .next { s with hw := takeAcquire n l m f (refuse n .none s.hw) } := by
  rw [exec_acquire n hr.1, acquireCommand, hm, hl]
  exact congrArg (fun g => Host.Outcome.next { s with hw := g })
    (whenIdle_taken s.hw n ((stationReady_iff_slotsReady hr.1).mpr hr) hs)

theorem exec_release_taken {lw : BitVec 13} {l : LockId} (hl : lockField lw = some l) :
    exec (.release n lw) s = .next { s with hw := takeRelease n l (refuse n .none s.hw) } := by
  rw [exec_release n hr.1, releaseCommand, hl]
  exact congrArg (fun g => Host.Outcome.next { s with hw := g })
    (whenIdle_taken s.hw n ((stationReady_iff_slotsReady hr.1).mpr hr) hs)

theorem exec_downgrade_taken {lw : BitVec 13} {l : LockId} (hl : lockField lw = some l) :
    exec (.downgrade n lw) s = .next { s with hw := takeDowngrade n l (refuse n .none s.hw) } := by
  rw [exec_downgrade n hr.1, downgradeCommand, hl]
  exact congrArg (fun g => Host.Outcome.next { s with hw := g })
    (whenIdle_taken s.hw n ((stationReady_iff_slotsReady hr.1).mpr hr) hs)

omit hr hs

@[simp] theorem refuse_holds (c : RefusalCode) : (refuse n c h).rqt.holds = h.rqt.holds := rfl
@[simp] theorem refuse_waitLimits (c : RefusalCode) : (refuse n c h).rqt.waitLimits = h.rqt.waitLimits := rfl

/-- Settles O12: an entry there, no space, or a reservation and the ACQUIRE issued. -/
theorem acquireTaken : Obligations.AcquireTaken := by
  unfold Obligations.AcquireTaken
  intro s n mw f lw m l hr hs hm hl limit o
  have hg : (commanded n o s.hw).rqt.slot n =
      { s.hw.rqt.slot n with refusal := .none, operation := some o, attempts := 0 } := by simp [commanded_eq]
  have hend : ∀ c d, endAcquire n c d (commanded n o s.hw) = endOperation n c d (some m) (commanded n o s.hw) := by
    intro c d
    simp only [endAcquire, Hw.slot, hg, Option.bind_some, o]
  refine ⟨fun e hf he => ⟨_, exec_acquire_taken n hr hs hm hl, ?_⟩, fun hf hfull => ⟨_, exec_acquire_taken n hr hs hm hl, ?_⟩,
    fun hf hroom => ⟨_, exec_acquire_taken n hr hs hm hl, ?_⟩⟩
  · have ht : takeAcquire n l m f (refuse n .none s.hw) =
        endOperation n .alreadyHeld (alreadyHeldDetail e.state) (some m) (commanded n o s.hw) := by
      simp only [takeAcquire, refuse_holds, refuse_waitLimits, hf]
      exact hend .alreadyHeld (alreadyHeldDetail e.state)
    rw [ht]
    refine ⟨endOperation_commanded_holds n _ _ _ (by simp) (withoutReservation_of_some n hf ?_),
      endedAtOnce_of n ⟨_, (setHolds_self _).symm⟩ _ _ _⟩
    rcases he with he | he <;> simp [he]
  · have ht : takeAcquire n l m f (refuse n .none s.hw) =
        endOperation n .noSpace .none (some m) (commanded n o s.hw) := by
      simp only [takeAcquire, refuse_holds, refuse_waitLimits, hf, Config.holdCapacity, hfull, if_true]
      exact hend .noSpace .none
    rw [ht]
    exact ⟨endOperation_commanded_holds n _ _ _ (by simp) (withoutReservation_of_none n hf),
      endedAtOnce_of n ⟨_, (setHolds_self _).symm⟩ _ _ _⟩
  · have ht : takeAcquire n l m f (refuse n .none s.hw) = reserveAndIssue n l m limit (commanded n o s.hw) := by
      simp only [takeAcquire, refuse_holds, refuse_waitLimits, hf, Config.holdCapacity, Nat.not_le.mpr hroom, if_false]
      rfl
    rw [ht]
    refine ⟨?_, issuedToHome_of n ⟨_, rfl⟩, by simp [reserveAndIssue, commanded_eq], ?_⟩
    · simp [reserveAndIssue, commanded_eq]
    · simp [reserveAndIssue, commanded_eq, sameWalk]

/-- Settles O13: no entry, a REVOKED one, or a HELD one given back. -/
theorem releaseTaken : Obligations.ReleaseTaken := by
  unfold Obligations.ReleaseTaken
  intro s n lw l hr hs hl o
  have hg : ((commanded n o s.hw).rqt.slot n).operation = some o := by simp [commanded_eq]
  have hh : (commanded n o s.hw).rqt.holds = s.hw.rqt.holds := by simp [commanded_eq]
  refine ⟨fun hf => ⟨_, exec_release_taken n hr hs hl, ?_⟩, fun e hf he => ⟨_, exec_release_taken n hr hs hl, ?_⟩,
    fun e hf he => ⟨_, exec_release_taken n hr hs hl, ?_⟩⟩
  · have ht : takeRelease n l (refuse n .none s.hw) = endOperation n .notHeld .none none (commanded n o s.hw) := by
      simp only [takeRelease, refuse_holds, hf]; rfl
    rw [ht]
    exact ⟨endOperation_commanded_holds n _ _ _ (by simp) (withoutReservation_of_none n hf),
      endedAtOnce_of n ⟨_, (setHolds_self _).symm⟩ _ _ _⟩
  · have ht : takeRelease n l (refuse n .none s.hw) =
        endOperation n .released .revoked (some e.mode) (dropOperationHold n (commanded n o s.hw)) := by
      simp only [takeRelease, refuse_holds, hf, he, if_true]
      have := endRelease_eq (commanded n o s.hw) n .revoked hg
      rw [hh, hf] at this
      exact this
    have hd : dropOperationHold n (commanded n o s.hw) =
        (commanded n o s.hw).setHolds (removeHold n l s.hw.rqt.holds) := by
      simp only [dropOperationHold, Hw.slot, hg, hh]; rfl
    rw [ht, hd]
    exact ⟨(endOperation_holds ((commanded n o s.hw).setHolds (removeHold n l s.hw.rqt.holds)) n (o := o)
        (c := .released) (d := .revoked) (m := some e.mode) hg (by simp)).trans
      (withoutReservation_removeHold n l s.hw.rqt.holds),
      endedAtOnce_of n ⟨removeHold n l s.hw.rqt.holds, rfl⟩ .released .revoked (some e.mode)⟩
  · have ht : takeRelease n l (refuse n .none s.hw) =
        issueOperation n ((commanded n o s.hw).setHolds (updateHold n l (Hold.become .releasing e.mode) s.hw.rqt.holds)) := by
      simp only [takeRelease, refuse_holds, hf, he]
      have : setOperationHold n .releasing e.mode (commanded n o s.hw) =
          (commanded n o s.hw).setHolds (updateHold n l (Hold.become .releasing e.mode) s.hw.rqt.holds) := by
        simp only [setOperationHold, Hw.slot, hg, hh, o]
      exact congrArg (issueOperation n) this
    rw [ht]
    refine ⟨by simp; rfl, issuedToHome_of n ⟨updateHold n l (Hold.become .releasing e.mode) s.hw.rqt.holds, ?_⟩,
      by simp [commanded_eq], by simp [commanded_eq, sameWalk]⟩
    have hw : (s.hw.rqt.slot n).waitTimer = ((commanded n o s.hw).rqt.slot n).waitTimer := by simp [commanded_eq]
    rw [hw]
    exact (setSlot_self ((commanded n o s.hw).setHolds _) n).symm

/-- Settles O14: no entry, a REVOKED or SHARED one, or an EXCLUSIVE one that goes DOWNGRADING. -/
theorem downgradeTaken : Obligations.DowngradeTaken := by
  unfold Obligations.DowngradeTaken
  intro s n lw l hr hs hl o
  have hg : ((commanded n o s.hw).rqt.slot n).operation = some o := by simp [commanded_eq]
  have hh : (commanded n o s.hw).rqt.holds = s.hw.rqt.holds := by simp [commanded_eq]
  refine ⟨fun hf => ⟨_, exec_downgrade_taken n hr hs hl, ?_⟩, fun e hf he => ⟨_, exec_downgrade_taken n hr hs hl, ?_⟩,
    fun e hf he hm => ⟨_, exec_downgrade_taken n hr hs hl, ?_⟩, fun e hf he hm => ⟨_, exec_downgrade_taken n hr hs hl, ?_⟩⟩
  · have ht : takeDowngrade n l (refuse n .none s.hw) = endOperation n .notHeld .none none (commanded n o s.hw) := by
      simp only [takeDowngrade, refuse_holds, hf]; rfl
    rw [ht]
    exact ⟨endOperation_commanded_holds n _ _ _ (by simp) (withoutReservation_of_none n hf),
      endedAtOnce_of n ⟨_, (setHolds_self _).symm⟩ _ _ _⟩
  · have ht : takeDowngrade n l (refuse n .none s.hw) =
        endOperation n .notHeld .revoked (some e.mode) (commanded n o s.hw) := by
      simp only [takeDowngrade, refuse_holds, hf, he, if_true]; rfl
    rw [ht]
    exact ⟨endOperation_commanded_holds n _ _ _ (by simp) (withoutReservation_of_some n hf (by simp [he])),
      endedAtOnce_of n ⟨_, (setHolds_self _).symm⟩ _ _ _⟩
  · have ht : takeDowngrade n l (refuse n .none s.hw) =
        endOperation n .notExclusive .none (some .shared) (commanded n o s.hw) := by
      simp only [takeDowngrade, refuse_holds, hf, he, hm]; rfl
    rw [ht]
    exact ⟨endOperation_commanded_holds n _ _ _ (by simp) (withoutReservation_of_some n hf (by simp [he])),
      endedAtOnce_of n ⟨_, (setHolds_self _).symm⟩ _ _ _⟩
  · have ht : takeDowngrade n l (refuse n .none s.hw) = walkerAct (issueOperation n
        ((commanded n o s.hw).setHolds (updateHold n l (Hold.become .downgrading .exclusive) s.hw.rqt.holds))) := by
      simp only [takeDowngrade, refuse_holds, hf, he, hm]
      have : setOperationHold n .downgrading .exclusive (commanded n o s.hw) =
          (commanded n o s.hw).setHolds (updateHold n l (Hold.become .downgrading .exclusive) s.hw.rqt.holds) := by
        simp only [setOperationHold, Hw.slot, hg, hh, o]
      exact congrArg (fun g => walkerAct (issueOperation n g)) this
    have hw : (s.hw.rqt.slot n).waitTimer = ((commanded n o s.hw).rqt.slot n).waitTimer := by simp [commanded_eq]
    have hissued : issuedToHome s { s with hw := issueOperation n ((commanded n o s.hw).setHolds
          (updateHold n l (Hold.become .downgrading .exclusive) s.hw.rqt.holds)) } n o
        (slotTransaction o.op.kind n o) (slotRequest o.op.kind s.hw.id n o) (s.hw.rqt.slot n).waitTimer :=
      issuedToHome_of n ⟨_, by rw [hw]; exact (setSlot_self ((commanded n o s.hw).setHolds _) n).symm⟩
    obtain ⟨hslot, hrec, hptr, hothers, hcqu, hscu, hmbu, hport⟩ := hissued
    obtain ⟨st, hst, haway, hhome⟩ := hslot
    rw [ht]
    refine ⟨?_, ⟨?_, ?_, ?_, fun k hk => ?_, ?_, ?_, ?_, ?_⟩, ?_, ?_, ?_⟩
    · rw [walkerAct_unmarked]; simp; rfl
    · refine ⟨st, (walkerAct_slot _ n).trans hst, fun hne => ?_, fun heq => ?_⟩
      · simp only [walkerAct_lbc_normal, walkerAct_htu]
        exact haway hne
      · simp only [walkerAct_lbc_normal, walkerAct_htu]
        exact hhome heq
    · simpa using hrec
    · simpa using hptr
    · simpa using hothers k hk
    · simpa using hcqu
    · simpa using hscu
    · simpa using hmbu
    · simpa using hport
    · simp [commanded_eq]
    · simp [commanded_eq]
    · simp [commanded_eq]

end Sys2Proof.Machine
end

section
/-! What the Request Tracker can do to the station: every operation of the tracker is made of a few moves, and a property
that each move keeps (`TrackerKept`) is kept by every operation. The laws of the state (O57 to O60) and the frame of the
tracker (what it leaves alone in the other blocks) are read off from it. -/

namespace Sys2Proof.Machine

/-- The slot has no RESULT in the queue, and may have an operation running: it is not DONE, no flush has aborted it, and
it is out of IDLE or the station takes slot commands. -/
def Active (n : SlotId) (h : Hw) : Prop :=
  (h.rqt.slot n).state ≠ .done ∧ ((h.rqt.slot n).aborted = false ∨ h.scu.flushing = false)
    ∧ ((h.rqt.slot n).state ≠ .idle ∨ stationReady h = true)

/-- A property of the hardware that each move of the Request Tracker keeps with which it takes a response or answers an
offer. -/
structure AnswerKept (P : Hw → Prop) : Prop where
  /-- The hold table altered lawfully. -/
  holds {h : Hw} {t : List (Nat × Hold)} : (holdTableLaw h.rqt.holds → holdTableLaw t) → P h → P (h.setHolds t)
  /-- A slot record altered: it stays in its state, or goes on with its operation. -/
  slot {h : Hw} {n : SlotId} {r : SlotRecord} : r.aborted = (h.rqt.slot n).aborted →
    (r.state = (h.rqt.slot n).state ∨ (Active n h ∧ r.state ≠ .done ∧ r.state ≠ .idle)) → P h → P (h.setSlot n r)
  /-- An operation ends (R81). -/
  ended {h : Hw} {n : SlotId} (c : ResultCode) (d : ResultDetail) (m : Option Mode) :
    Active n h → P h → P (endOperation n c d m h)
  /-- A slot's entry listed (R80). -/
  placed {h : Hw} {x : Transaction} : x.kind.isSlot = true → P h → P (placeNormal x h)
  /-- A self-homed request or the answer to an internal offer handed to the home (R52, R92). -/
  claimed {h : Hw} {c : Claim} : (c.isSelfRequest = true ∨ c.isInternalOutcome = true) → P h → P (addClaim c h)
  /-- The responses handed. -/
  responses {h : Hw} (l : List SelfResponse) : P h → P { h with rqt := { h.rqt with responses := l } }
  /-- The walker acts (R143). -/
  walk {h : Hw} : P h → P (walkerAct h)

/-- A property of the hardware that each move of the Request Tracker and of its walker keeps. -/
structure TrackerKept (P : Hw → Prop) : Prop extends AnswerKept P where
  /-- A slot's entry returned or removed (R40, R80). -/
  returned {h : Hw} {x : Transaction} : x.kind.isSlot = true → P h → P (returnNormal x h)
  removed {h : Hw} (key : Transaction → Bool) : P h → P (removeNormal key h)
  /-- The answer in flight. -/
  answer {h : Hw} (a : Option Answer) : P h → P { h with rqt := { h.rqt with answer := a } }
  /-- A NOTICE asked for (R100). -/
  notice {h : Hw} (n : SlotId) : P h → P (requestNotice n h)
  /-- The walker acts with a REASSERT come back (R144). -/
  lowered {h : Hw} : P h → P (walkerAct (lowerOutstanding 1 h))
  /-- A home finished, dropped or added (R142, R145). -/
  finished {h : Hw} (s : StationId) : P h → P (walkerFinish s h)
  dropped {h : Hw} (s : StationId) : P h → P (walkerDrop s h)
  added {h : Hw} (s : StationId) : h.scu.station.present = true → P h → P (walkerAdd s h)
  /-- A voided REASSERT kept or given up (R40, R159). -/
  voided {h : Hw} {x : Transaction} : x.kind = .reassert → P h → P (reassertVoid x h)

theorem Active.setSlot {n : SlotId} {h : Hw} {r : SlotRecord} (a : Active n h) (hs : r.state = (h.rqt.slot n).state)
    (ha : r.aborted = (h.rqt.slot n).aborted) : Active n (h.setSlot n r) := by
  rw [Active, slot_setSlot_same, hs, ha]
  exact a

/-- The slot that awaits the outcome of its transaction is active. -/
theorem active_of_awaits {k : Kind} {n : SlotId} {h : Hw} (hw : awaitsOutcome k (h.rqt.slot n) = true) :
    Active n h := by
  simp only [awaitsOutcome, Bool.and_eq_true, Bool.not_eq_true'] at hw
  obtain ⟨hab, hst⟩ := hw
  split at hst <;> simp [Active, of_decide_eq_true hst, hab]

namespace AnswerKept

variable {P : Hw → Prop} (k : AnswerKept P) {h : Hw} {n : SlotId}
include k

/-! ### Issuing and ending -/

theorem issueOperation (a : Active n h) (hp : P h) : P (issueOperation n h) := by
  unfold Machine.issueOperation
  split
  · exact hp
  · next o _ =>
    split
    · exact k.claimed (.inl rfl) (k.slot rfl (.inr ⟨a, by simp⟩) hp)
    · refine k.placed ?_ (k.slot rfl (.inr ⟨a, by simp⟩) hp)
      cases ho : o.op <;> rfl

theorem issueCancel (c : CancelCause) (a : Active n h) (hp : P h) : P (issueCancel n c h) := by
  unfold Machine.issueCancel
  split
  · exact hp
  · dsimp only
    split
    · exact k.claimed (.inl rfl) (k.slot rfl (.inr ⟨a, by simp⟩) hp)
    · exact k.placed rfl (k.slot rfl (.inr ⟨a, by simp⟩) hp)

theorem endAcquire (c : ResultCode) (d : ResultDetail) (a : Active n h) (hp : P h) : P (endAcquire n c d h) :=
  k.ended c d _ a hp

theorem endCancelled (c : CancelCause) (a : Active n h) (hp : P h) : P (endCancelled n c h) := k.endAcquire _ _ a hp

theorem endRecordedCancel (a : Active n h) (hp : P h) : P (endRecordedCancel n h) := k.endCancelled _ a hp

theorem acquireHeld (m : Mode) (a : Active n h) (hp : P h) : P (acquireHeld n m h) := by
  unfold Machine.acquireHeld
  split
  · exact hp
  · exact k.walk (k.endAcquire _ _ a (k.holds (updateHold_law _ _ _ fun _ => ⟨rfl, rfl⟩) hp))

theorem dropOperationHold (hp : P h) : P (dropOperationHold n h) := by
  unfold Machine.dropOperationHold
  split
  · exact hp
  · exact k.holds (removeHold_law _ _) hp

theorem setOperationHold (s : HoldState) (m : Mode) (hp : P h) : P (setOperationHold n s m h) := by
  unfold Machine.setOperationHold
  split
  · exact hp
  · exact k.holds (updateHold_law _ _ _ fun _ => ⟨rfl, rfl⟩) hp

omit k in
theorem active_dropOperationHold (a : Active n h) : Active n (Machine.dropOperationHold n h) := by
  unfold Machine.dropOperationHold
  split <;> exact a

omit k in
theorem active_setOperationHold (s : HoldState) (m : Mode) (a : Active n h) :
    Active n (Machine.setOperationHold n s m h) := by
  unfold Machine.setOperationHold
  split <;> exact a

theorem endRelease (d : ResultDetail) (a : Active n h) (hp : P h) : P (endRelease n d h) :=
  k.ended _ _ _ (active_dropOperationHold a) (k.dropOperationHold hp)

/-! ### Outcomes of a slot's transaction -/

theorem countAttempt (hp : P h) : P (countAttempt n h) := k.slot rfl (.inl rfl) hp

omit k in
theorem active_countAttempt (a : Active n h) : Active n (Machine.countAttempt n h) := a.setSlot rfl rfl

theorem countRefusal (d : RefusedDetail) (a : Active n h) (hp : P h) :
    P (countRefusal n d h) ∧ Active n (Machine.countRefusal n d h) := by
  cases d
  case waitFull => exact ⟨k.countAttempt hp, active_countAttempt a⟩
  case holdFull => exact ⟨k.countAttempt hp, active_countAttempt a⟩
  case rebuilding => exact ⟨hp, a⟩

theorem enterBackoff (a : Active n h) (hp : P h) : P (enterBackoff n h) := k.slot rfl (.inr ⟨a, by simp⟩) hp

theorem acquireAnswered (r : Response) (a : Active n h) (hp : P h) : P (acquireAnswered n r h) := by
  unfold Machine.acquireAnswered
  split
  · split
    · exact k.acquireHeld _ a hp
    · exact hp
  · split
    · exact k.slot rfl (.inr ⟨a, by simp⟩) hp
    · exact k.issueCancel _ a hp
  · exact k.endAcquire _ _ a hp
  · next d =>
    obtain ⟨hc, ac⟩ := k.countRefusal d a hp
    dsimp only
    split
    · exact k.endCancelled _ ac hc
    · split
      · exact k.endAcquire _ _ ac hc
      · exact k.enterBackoff ac hc
  all_goals exact hp

theorem releaseAnswered (r : Response) (a : Active n h) (hp : P h) : P (releaseAnswered n r h) := by
  unfold Machine.releaseAnswered
  split
  · exact k.endRelease _ a hp
  · exact k.endRelease _ a hp
  all_goals exact hp

theorem downgradeAnswered (r : Response) (a : Active n h) (hp : P h) : P (downgradeAnswered n r h) := by
  unfold Machine.downgradeAnswered
  split
  · exact k.walk (k.ended _ _ _ (active_setOperationHold _ _ a) (k.setOperationHold _ _ hp))
  · exact k.ended _ _ _ (active_dropOperationHold a) (k.dropOperationHold hp)
  · exact k.enterBackoff a hp
  all_goals exact hp

theorem cancelAnswered (r : Response) (a : Active n h) (hp : P h) : P (cancelAnswered n r h) := by
  unfold Machine.cancelAnswered
  split
  · exact k.endRecordedCancel a hp
  · exact k.endRecordedCancel a hp
  all_goals exact hp

theorem slotAnswered (q : Kind) (r : Response) (a : Active n h) (hp : P h) : P (slotAnswered q n r h) := by
  unfold Machine.slotAnswered
  split
  · exact k.acquireAnswered r a hp
  · exact k.releaseAnswered r a hp
  · exact k.downgradeAnswered r a hp
  · exact k.cancelAnswered r a hp
  all_goals exact hp

theorem slotAbsent (q : Kind) (a : Active n h) (hp : P h) : P (slotAbsent q n h) := by
  unfold Machine.slotAbsent
  split
  · exact k.endAcquire _ _ a hp
  · exact k.endRelease _ a hp
  · exact k.walk (k.ended _ _ _ (active_setOperationHold _ _ a) (k.setOperationHold _ _ hp))
  · exact k.endRecordedCancel a hp
  all_goals exact hp

/-! ### Self-homed responses and offers -/

theorem takeResponse (p : SelfResponse) (hp : P h) : P (takeResponse p h) := by
  have hr : P { h with rqt := { h.rqt with responses := h.rqt.responses.erase p } } := k.responses _ hp
  unfold Machine.takeResponse
  dsimp only
  split
  · exact k.slot rfl (.inl rfl) hr
  · split
    · next hw => exact k.slotAnswered _ _ (active_of_awaits hw) hr
    · exact hr

theorem takeSlotResponse (hp : P h) : P (takeSlotResponse n h) := by
  unfold Machine.takeSlotResponse
  split
  · exact hp
  · exact k.takeResponse _ hp

theorem takeSlotResponses (j : Nat) (hp : P h) : P (takeSlotResponses n j h) := by
  induction j generalizing h with
  | zero => exact hp
  | succ j ih => exact ih (k.takeSlotResponse hp)

omit k in
theorem active_of_accepts {l : LockId} {m : Mode} (ha : (answerOffer n l m h).1 = true) : Active n h := by
  obtain ⟨hf, hw, _⟩ := (answerOffer_accepts h n l m).mp ha
  simp [Active, hf, hw]

theorem internalOffer (l : LockId) (m : Mode) (hp : P h) : P (internalOffer n l m h) := by
  have hc := k.takeSlotResponses (n := n) h.rqt.responses.length hp
  refine k.claimed (.inr rfl) ?_
  split
  · next ha => exact k.acquireHeld m (active_of_accepts ha) hc
  · exact hc

end AnswerKept

namespace TrackerKept

variable {P : Hw → Prop} (k : TrackerKept P) {h : Hw} {n : SlotId}
include k

/-! ### A voided entry -/

theorem keepSlotEntry {x : Transaction} (hx : x.kind.isSlot = true) (a : Active x.slot h) (hp : P h) :
    P (keepSlotEntry x h) := by
  unfold Machine.keepSlotEntry
  refine k.returned hx ?_
  split
  · exact hp
  · exact k.slot rfl (.inr ⟨a, by simp⟩) hp

theorem slotVoid {x : Transaction} (hx : x.kind.isSlot = true) (a : Active x.slot h) (hp : P h) :
    P (slotVoid x h) := by
  have hc : P (Machine.countAttempt x.slot h) := k.countAttempt hp
  have ac := AnswerKept.active_countAttempt a
  unfold Machine.slotVoid
  split
  · exact k.endRecordedCancel a hp
  · split
    · dsimp only
      split
      · exact k.endCancelled _ ac hc
      · split
        · exact k.endAcquire _ _ ac hc
        · exact k.keepSlotEntry hx ac hc
    · exact k.keepSlotEntry hx a hp

theorem slotOutcome {x : Transaction} (hx : x.kind.isSlot = true) (o : BusOutcome) (hp : P h) :
    P (slotOutcome x o h) := by
  unfold Machine.slotOutcome
  split
  · next hw =>
    have a := active_of_awaits hw
    split
    · exact k.slotVoid hx a hp
    · exact k.slotAbsent _ a hp
    · exact k.slotAnswered _ _ a hp
    · exact hp
  · exact hp

/-! ### Answers in flight and waits -/

theorem takeGrant (l : LockId) (m : Mode) (hp : P h) : P (takeGrant n l m h) := k.answer _ hp

theorem removeCancel (hs : (h.rqt.slot n).state = .cancelling)
    (ha : (h.rqt.slot n).aborted = false ∨ h.scu.flushing = false) (hp : P h) : P (removeCancel n h) := by
  unfold Machine.removeCancel
  split
  · exact hp
  · split
    · exact k.endRecordedCancel (by simpa [Active, hs] using ha) (k.removed _ hp)
    · exact k.slot rfl (.inl rfl) hp

theorem applyAnswer (x : Answer) (hf : h.scu.flushing = false) (hp : P h) : P (applyAnswer x h) := by
  unfold Machine.applyAnswer
  split
  · next hc => exact k.acquireHeld _ (by simp [Active, hf, hc.2]) hp
  · split
    · next hc => exact k.removeCancel hc.2.1 (.inr hf) hp
    · exact hp

theorem discardAnswer (x : Answer) (hf : h.scu.flushing = false) (hp : P h) : P (discardAnswer x h) := by
  unfold Machine.discardAnswer
  split
  · next hc =>
    have a : Active x.slot h := by simp [Active, hf, hc.2]
    split
    · exact k.endCancelled _ a hp
    · exact k.issueCancel _ a hp
    · exact k.endAcquire _ _ a hp
    · exact hp
  · exact hp

theorem settleAnswer (v : Bool) (hp : P h) : P (settleAnswer v h) := by
  unfold Machine.settleAnswer
  split
  · exact hp
  · have he : P { h with rqt := { h.rqt with answer := none } } := k.answer none hp
    dsimp only
    split
    · exact he
    · next hf =>
      have hf' : h.scu.flushing = false := by simpa using hf
      split
      · exact k.discardAnswer _ hf' he
      · exact k.applyAnswer _ hf' he

/-! ### Cancels -/

theorem requestCancel (c : CancelCause) (ha : (h.rqt.slot n).aborted = false ∨ h.scu.flushing = false) (hp : P h) :
    P (requestCancel n c h) := by
  unfold Machine.requestCancel
  dsimp only
  split
  all_goals try exact hp
  case h_1 hs =>
    have a : Active n h := by simp [Active, hs, ha]
    split
    · exact k.endCancelled _ a (k.removed _ hp)
    · exact k.slot rfl (.inr ⟨a, by simp⟩) hp
  case h_2 hs => exact k.slot rfl (.inr ⟨by simp [Active, hs, ha], by simp⟩) hp
  case h_3 hs => exact k.endCancelled _ (by simp [Active, hs, ha]) hp
  case h_4 hs =>
    have a : Active n h := by simp [Active, hs, ha]
    split
    · exact k.slot rfl (.inr ⟨a, by simp⟩) hp
    · exact k.issueCancel _ a hp

/-! ### Operations invoked by other blocks -/

omit k in
theorem forSlots {f : SlotId → Hw → Hw} (hf : ∀ n g, P g → P (f n g)) (hp : P h) : P (forSlots f h) := by
  unfold Machine.forSlots
  exact List.foldlRecOn (motive := P) _ _ hp fun g hg n _ => hf n g hg

theorem evictSlot (s : StationId) (hp : P h) : P (evictSlot s n h) := by
  unfold Machine.evictSlot
  dsimp only
  split
  · exact hp
  · next hc =>
    have ha : (h.rqt.slot n).aborted = false := by simpa using (not_or.mp hc).1
    split
    all_goals try exact hp
    case h_1 hs => exact k.endAcquire _ _ (by simp [Active, hs, ha]) hp
    case h_2 hs => exact k.removeCancel hs (.inl ha) hp

theorem revokeByEvict (s : StationId) (hp : P h) : P (revokeByEvict s h) := by
  refine forSlots (fun _ _ => k.evictSlot s) (forSlots (fun m g hg => ?_) (k.holds (revoke_law s) hp))
  split
  · exact k.notice m hg
  · exact hg

theorem revokeByConflict (l : LockId) (hp : P h) : P (revokeByConflict n l h) := by
  unfold Machine.revokeByConflict
  split
  · exact hp
  · split
    · exact k.notice _ (k.holds (updateHold_law _ _ _ fun _ => ⟨rfl, rfl⟩) hp)
    · exact hp

theorem failSlot (s : StationId) (hp : P h) : P (failSlot s n h) := by
  unfold Machine.failSlot
  dsimp only
  split
  · exact hp
  · next hc =>
    have ha : (h.rqt.slot n).aborted = false := by simpa using (not_or.mp hc).1
    split
    all_goals try exact hp
    case h_1 hs =>
      split
      · exact k.answer _ hp
      · exact k.endAcquire _ _ (by simp [Active, hs, ha]) hp
    case h_2 hs => exact k.removeCancel hs (.inl ha) hp

theorem failWaits (s : StationId) (hp : P h) : P (failWaits s h) := forSlots (fun _ _ => k.failSlot s) hp

theorem reissueSlot (s : StationId) (hp : P h) : P (reissueSlot s n h) := by
  unfold Machine.reissueSlot
  dsimp only
  split
  · exact hp
  · next hc =>
    have ha : (h.rqt.slot n).aborted = false := by simpa using (not_or.mp hc).1
    split
    all_goals try exact hp
    case h_1 hs => exact k.issueOperation (by simp [Active, hs, ha]) hp
    case h_2 hs => exact k.removeCancel hs (.inl ha) hp

theorem reissueWaits (s : StationId) (hp : P h) : P (reissueWaits s h) := forSlots (fun _ _ => k.reissueSlot s) hp

/-! ### Outcomes of a REASSERT -/

omit k in
/-- A hold revoked and the count lowered, in either order. -/
theorem revokeByConflict_lowered (l : LockId) :
    Machine.revokeByConflict n l (lowerOutstanding 1 h) = lowerOutstanding 1 (Machine.revokeByConflict n l h) := by
  simp only [Machine.revokeByConflict, lowerOutstanding_holds]
  split
  · rfl
  · split
    · cases hn : h.cqu.notice n
      · simp [requestNotice, lowerOutstanding, Hw.setHolds, hn, appendEntry]
      · simp [requestNotice, lowerOutstanding, Hw.setHolds, hn]
    · rfl

theorem lockReassertAnswered (x : Transaction) (r : Response) (hp : P h) : P (lockReassertAnswered x r h) := by
  unfold Machine.lockReassertAnswered
  dsimp only
  split
  · rw [revokeByConflict_lowered]
    exact k.lowered (k.revokeByConflict _ hp)
  all_goals exact k.lowered hp

theorem closingReassertAnswered (x : Transaction) (r : Response) (hp : P h) : P (closingReassertAnswered x r h) := by
  unfold Machine.closingReassertAnswered
  split
  · exact k.finished _ hp
  · exact k.finished _ hp
  all_goals exact k.lowered hp

theorem reassertOutcome {x : Transaction} (hx : x.kind = .reassert) (o : BusOutcome) (hp : P h) :
    P (reassertOutcome x o h) := by
  unfold Machine.reassertOutcome
  split
  · exact k.voided hx hp
  · exact k.dropped _ hp
  · split
    · exact k.closingReassertAnswered _ _ hp
    · exact k.lockReassertAnswered _ _ hp
  · exact hp

/-! ### The slot commands and the slot timers -/

theorem refuse (c : RefusalCode) (hp : P h) : P (refuse n c h) := k.slot rfl (.inl rfl) hp

theorem whenIdle {f : Hw → Hw} (hf : ∀ g, (g.rqt.slot n).state = .idle → stationReady g = true → P g → P (f g))
    (hp : P h) : P (whenIdle n f h) := by
  unfold Machine.whenIdle
  split
  · exact k.refuse _ hp
  · next hr =>
    split
    · exact k.refuse _ hp
    · next hi => exact hf _ (by simpa [Machine.refuse] using hi) (not_not.mp hr) (k.refuse _ hp)

section
variable (hi : (h.rqt.slot n).state = .idle) (hr : stationReady h = true)
include hi hr

omit k in
theorem active_of_ready : Active n h := by
  have hf : h.scu.flushing = false := by
    simp only [stationReady, Bool.and_eq_true, Bool.not_eq_true'] at hr
    exact hr.2
  simp [Active, hi, hr, hf]

theorem takeAcquire (l : LockId) (m : Mode) (f : Bool) (hp : P h) : P (takeAcquire n l m f h) := by
  unfold Machine.takeAcquire
  dsimp only
  generalize ho : ({ op := .acquire, lock := l, mode := some m, tryFlag := f, waitLimit := _ } : Operation) = o
  have hc : P (recordOperation n o h) := k.slot rfl (.inl rfl) hp
  have a : Active n (recordOperation n o h) := (active_of_ready hi hr).setSlot rfl rfl
  split
  · exact k.endAcquire _ _ a hc
  · next hn =>
    split
    · exact k.endAcquire _ _ a hc
    · next hroom =>
      have hlt : h.rqt.holds.length < 128 := Nat.lt_of_not_le hroom
      have hins := k.holds (t := insertHold { lock := l, slot := n, mode := m, state := .reserved, mark := false }
        (recordOperation n o h).rqt.holds) (fun hl => insertHold_law hl hlt hn) hc
      exact k.issueOperation (a.setSlot (r := { (recordOperation n o h).rqt.slot n with waitTimer := _ }) rfl rfl)
        (k.slot rfl (.inl rfl) hins)

theorem takeRelease (l : LockId) (hp : P h) : P (takeRelease n l h) := by
  unfold Machine.takeRelease
  dsimp only
  have hc : P (recordOperation n (plainOperation .release l) h) := k.slot rfl (.inl rfl) hp
  have a : Active n (recordOperation n (plainOperation .release l) h) := (active_of_ready hi hr).setSlot rfl rfl
  split
  · exact k.ended _ _ _ a hc
  · split
    · exact k.endRelease _ a hc
    · exact k.issueOperation (AnswerKept.active_setOperationHold _ _ a) (k.setOperationHold _ _ hc)

theorem takeDowngrade (l : LockId) (hp : P h) : P (takeDowngrade n l h) := by
  unfold Machine.takeDowngrade
  dsimp only
  have hc : P (recordOperation n (plainOperation .downgrade l) h) := k.slot rfl (.inl rfl) hp
  have a : Active n (recordOperation n (plainOperation .downgrade l) h) := (active_of_ready hi hr).setSlot rfl rfl
  split
  · exact k.ended _ _ _ a hc
  · split
    · exact k.ended _ _ _ a hc
    · split
      · exact k.ended _ _ _ a hc
      · exact k.walk (k.issueOperation (AnswerKept.active_setOperationHold _ _ a) (k.setOperationHold _ _ hc))

end

theorem acquireCommand (mw : BitVec 2) (f : Bool) (lw : BitVec 13) (hp : P h) : P (acquireCommand n mw f lw h) := by
  unfold Machine.acquireCommand
  split
  · exact k.whenIdle (fun g hi hr => k.takeAcquire hi hr _ _ _) hp
  · exact k.refuse _ hp

theorem releaseCommand (lw : BitVec 13) (hp : P h) : P (releaseCommand n lw h) := by
  unfold Machine.releaseCommand
  split
  · exact k.whenIdle (fun g hi hr => k.takeRelease hi hr _) hp
  · exact k.refuse _ hp

theorem downgradeCommand (lw : BitVec 13) (hp : P h) : P (downgradeCommand n lw h) := by
  unfold Machine.downgradeCommand
  split
  · exact k.whenIdle (fun g hi hr => k.takeDowngrade hi hr _) hp
  · exact k.refuse _ hp

theorem cancelCommand (hp : P h) : P (cancelCommand n h) := by
  unfold Machine.cancelCommand
  split
  · exact k.refuse _ hp
  · next hr =>
    split
    · exact k.refuse _ hp
    · refine k.requestCancel _ (.inr ?_) (k.refuse _ hp)
      simp only [stationReady, Bool.and_eq_true, Bool.not_eq_true', not_not] at hr
      exact hr.2

theorem waitExpiry (hp : P h) : P (waitExpiry n h) := by
  unfold Machine.waitExpiry
  split
  · next hc => exact k.requestCancel _ (.inl (by simpa using hc.2)) (k.slot rfl (.inl rfl) hp)
  · exact hp

theorem backoffExpiry (hp : P h) : P (backoffExpiry n h) := by
  unfold Machine.backoffExpiry
  split
  · next hc =>
    have a : Active n h := by simp_all [Active]
    exact k.issueOperation (a.setSlot rfl rfl) (k.slot rfl (.inl rfl) hp)
  · exact hp

end TrackerKept

end Sys2Proof.Machine
end

section
/-! What every command does, for a property that does not look at the home's values, the membership table and the pins:
`StationKept` lists the moves such a property has to keep, and `StationKept.effect` says that then every command, and the
tick, keeps it. -/

namespace Sys2Proof.Machine

/-- A property of the hardware, blind to the home's values, that each move of the tracker and of the home keeps. -/
structure HomeKept (P : Hw → Prop) : Prop extends TrackerKept P where
  home {h : Hw} (u : Htu) : P h → P (h.setHtu u)
  raised {h : Hw} (ev : Event) : P h → P (raiseEvent ev h)
  /-- GRANTs and EVICTs listed, entries of the priority list removed. -/
  posted {h : Hw} {x : Transaction} : (x.kind = .grant ∨ x.kind = .evict) → P h → P (placePriority x h)
  withdrawn {h : Hw} (key : Transaction → Bool) : P h → P (removePriority key h)
  /-- LSTALL is set or released. -/
  lstall {h : Hw} {r : TxRecord} (b : Bool) : h.lbc.record = some r → P h → P (setRecord { r with lstall := b } h)
  /-- The station goes from REBUILDING to ONLINE. -/
  online {h : Hw} : h.scu.station = .rebuilding → P h → P { h with scu := { h.scu with station := .online } }

/-- A property of the hardware, blind to the home, the membership table and the pins, that each move of the station
keeps. -/
structure StationKept (P : Hw → Prop) : Prop extends HomeKept P where
  /-- The station state and the configuration alter, but neither the straps, nor into or out of LEAVING, and no present
  state is left. -/
  control {h : Hw} {c : Scu} : (c.id = h.scu.id ∧ c.bpsel = h.scu.bpsel) → c.flushing = h.scu.flushing → (h.scu.station.present = true → c.station.present = true) →
    (c.station = .leaving ↔ h.scu.station = .leaving) → P h → P { h with scu := c }
  online := fun {_} hs hp => control ⟨rfl, rfl⟩ rfl (fun _ => rfl) (by simp [hs]) hp
  members {h : Hw} (m : Mbu) : P h → P { h with mbu := m }
  pins {h : Hw} (p : Port) : P h → P { h with port := p }
  limits {h : Hw} (v : Vector (BitVec 16) 32) : P h → P { h with rqt := { h.rqt with waitLimits := v } }
  /-- BEACONs and JOINs listed. -/
  listed {h : Hw} {x : Transaction} : (x.kind = .beacon ∨ x.kind = .join) → P h → P (placeNormal x h)
  /-- The record of the open transaction goes on with its entry, and closes. -/
  record {h : Hw} {r r' : TxRecord} : h.lbc.record = some r → r'.entry = r.entry → P h → P (setRecord r' h)
  lstall := fun {_ r} b hr hp => record (r' := { r with lstall := b }) hr rfl hp
  closed {h : Hw} : P h → P (closeRecord h)
  /-- The lines alter, and owe no more pulses. -/
  lines {h : Hw} {v : Vector Line 4} : (∀ k, (v.get k).owed ≤ (h.cqu.lines.get k).owed) → P h →
    P { h with cqu := { h.cqu with lines := v } }
  /-- The slots' timers advance. -/
  ticked {h : Hw} : P h → P { h with rqt := h.rqt.mapSlots SlotRecord.tick }
  /-- A station reset. -/
  reset {h : Hw} (c : CommandStatus) : P h → P (stationReset c h)
  /-- A flush starts and ends, and a LEAVE command is taken. -/
  flushed {h : Hw} : mayFlush h = true → P h → P (startFlush h)
  unflushed {h : Hw} : P h → P (endFlush h)
  leaving {h : Hw} : (h.scu.station = .rebuilding ∨ h.scu.station = .online) → P h → P (takeLeave h)
  /-- A whole read of the queue head register. -/
  headRead {h : Hw} : P h → P (readHead h)
  /-- An arbitration is won with an entry of the lists or with none. -/
  won {h : Hw} {w : StationId} {round : Round} {c : Option Transaction} :
    (∀ x, c = some x → x ∈ h.lbc.priority ∨ x ∈ h.lbc.normal) → P h → P (wonBy w round c h)
  /-- The own entry is returned to its list, and the own LEAVE completes. -/
  keptBack {h : Hw} {r : TxRecord} {x : Transaction} (round : Round) : h.lbc.record = some r → r.entry = some x →
    P h → P (keepEntry round x (closeRecord h))
  left {h : Hw} {r : TxRecord} {x : Transaction} : h.lbc.record = some r → r.entry = some x → x.kind = .leave →
    P h → P (ownLeave (closeRecord h))

namespace HomeKept

variable {P : Hw → Prop} (k : HomeKept P) {h : Hw}
include k

/-! ### The home -/

theorem addClaim (c : Claim) (hp : P h) : P (addClaim c h) := k.home _ hp

theorem offer (w : Waiter) (hp : P h) : P (offer w h) := by
  unfold Machine.offer
  split
  · exact k.internalOffer _ _ (k.home _ hp)
  · split
    · exact k.posted (.inl rfl) (k.home _ hp)
    · exact k.home _ hp

theorem refillOne (hp : P h) : P (refillOne h) := by
  unfold Machine.refillOne
  split
  · exact hp
  · split
    · exact k.posted (.inl rfl) (k.home _ hp)
    · exact hp

theorem refill (j : Nat) (hp : P h) : P (refill j h) := by
  induction j generalizing h with
  | zero => exact hp
  | succ j ih => exact ih (k.refillOne hp)

theorem departGrant (hp : P h) : P (departGrant h) := by
  unfold Machine.departGrant
  dsimp only
  split
  · exact k.home _ hp
  · exact k.refillOne (k.home _ hp)

theorem withdrawOffer (e : Holder) (hp : P h) : P (withdrawOffer e h) := by
  unfold Machine.withdrawOffer
  dsimp only
  split
  · split
    · exact k.departGrant (k.withdrawn _ hp)
    · exact hp
  · exact k.home _ hp
  · exact hp

theorem withdrawOffers (es : List Holder) (hp : P h) : P (withdrawOffers es h) := by
  unfold Machine.withdrawOffers
  exact List.foldlRecOn (motive := P) _ _ hp fun g hg e _ => k.withdrawOffer e hg

theorem evaluateFrom (i : LockIndex) (j : Nat) (hp : P h) : P (evaluateFrom i j h) := by
  induction j generalizing h with
  | zero => exact k.home _ hp
  | succ j ih =>
    unfold Machine.evaluateFrom
    split
    · exact k.home _ hp
    · split
      · split
        · exact ih (k.offer _ hp)
        · unfold stall
          split
          · exact hp
          · exact k.home _ hp
      · exact k.home _ hp

theorem evaluate (i : LockIndex) (hp : P h) : P (evaluate i h) := k.evaluateFrom i _ hp

theorem evaluateAll (l : List LockIndex) (hp : P h) : P (l.foldl (fun g i => Machine.evaluate i g) h) :=
  List.foldlRecOn (motive := P) _ _ hp fun _ hg i _ => k.evaluate i hg

theorem stalledPass (hp : P h) : P (stalledPass h) := by
  unfold Machine.stalledPass
  refine List.foldlRecOn (motive := P) _ _ hp fun g hg i _ => ?_
  split
  · exact k.evaluate i hg
  · exact hg

theorem evaluateChanged (l : List LockIndex) (hp : P h) : P (evaluateChanged l h) := by
  unfold Machine.evaluateChanged
  split
  · exact k.stalledPass (k.evaluateAll _ hp)
  · exact hp

theorem evaluateTouched (l : List LockIndex) (hp : P h) : P (evaluateTouched l h) := by
  unfold Machine.evaluateTouched
  split
  · exact k.stalledPass (k.evaluateAll _ hp)
  · exact hp

omit k in
theorem rebuilding_of_home (hh : h.home = .rebuilding) : h.scu.station = .rebuilding := by
  unfold Hw.home at hh
  cases hs : h.scu.station
  case rebuilding => rfl
  all_goals rw [hs] at hh; cases hh

theorem unawait (s : StationId) (hp : P h) : P (unawait s h) := by
  unfold Machine.unawait
  split
  · next hc =>
    dsimp only
    split
    · have ho := k.home { h.htu with awaited := 0, rebuildTimer := none } (k.online (rebuilding_of_home hc.1) hp)
      exact k.raised _ ho
    · exact k.home _ hp
  · exact hp

theorem applyChanges {f : Hw → Hw} (hf : ∀ g, P g → P (f g)) (c : Changes) (hp : P h) : P (applyChanges c f h) := by
  refine k.evaluateChanged _ (k.withdrawOffers _ (hf _ ?_))
  unfold unawaitOption
  split
  · exact k.unawait _ (k.home _ hp)
  · exact k.home _ hp

theorem serveSelfRequest (r : Request) (hp : P h) : P (serveSelfRequest r h) :=
  k.applyChanges (fun _ hg => k.responses _ hg) _ hp

theorem setStall (b : Bool) (hp : P h) : P (setStall b h) := by
  cases hr : h.lbc.record with
  | none =>
    have : Machine.setStall b h = h := by
      simp only [Machine.setStall, hr, Option.map_none]
      rw [← hr]
    rwa [this]
  | some r =>
    have : Machine.setStall b h = setRecord { r with lstall := b } h := by simp [Machine.setStall, setRecord, hr]
    exact this ▸ k.lstall b hr hp

theorem takeEngaged (hp : P h) : P (takeEngaged h) := by
  unfold Machine.takeEngaged
  split
  · exact hp
  · split
    · exact k.setStall _ (k.home _ hp)
    · exact hp

theorem applyGrantOutcome (i : LockIndex) (s : StationId) (n : SlotId) (a : Bool) (hp : P h) :
    P (applyGrantOutcome i s n a h) := by
  unfold Machine.applyGrantOutcome
  split
  · exact k.evaluateChanged _ (k.home _ hp)
  · exact hp

theorem startPurge (s : StationId) (ev rb : Bool) (rest : List StationId) (hp : P h) :
    P (startPurge s ev rb rest h) := k.withdrawOffers _ (k.home _ hp)

theorem queueEvict (p : Purge) (hp : P h) : P (queueEvict p h) := by
  unfold Machine.queueEvict
  split
  · exact k.posted (.inr rfl) hp
  · exact hp

theorem endRebuild (hp : P h) : P (endRebuild h) := by
  unfold Machine.endRebuild
  split
  · next hs =>
    have ho := k.home { h.htu with rebuildTimer := none } (k.online hs hp)
    exact k.raised _ ho
  · exact hp

theorem continueRebuild (p : Purge) (hp : P h) : P (continueRebuild p h) := by
  have hr : P (raiseEvent (.rebuildEvicted p.station) h) := k.raised _ hp
  unfold Machine.continueRebuild
  split
  · dsimp only
    split
    · exact k.startPurge _ _ _ _ hr
    · exact k.endRebuild hr
  · exact hp

theorem endPurge (p : Purge) (hp : P h) : P (endPurge p h) :=
  k.continueRebuild p (k.evaluateTouched _ (k.home _ (k.refill _ (k.queueEvict p hp))))

theorem takePurgeCause (s : StationId) (ev : Bool) (hp : P h) : P (takePurgeCause s ev h) := by
  unfold Machine.takePurgeCause
  split
  · exact hp
  · exact k.startPurge _ _ _ _ hp

theorem deliverPurgeCause (s : StationId) (ev : Bool) (hp : P h) : P (deliverPurgeCause s ev h) := by
  unfold Machine.deliverPurgeCause
  split
  · exact hp
  · exact k.addClaim _ hp

theorem takeRebuildExpiry (hp : P h) : P (takeRebuildExpiry h) := by
  unfold Machine.takeRebuildExpiry
  split
  · split
    · exact hp
    · exact k.startPurge _ _ _ _ (k.home _ hp)
  · exact hp

theorem takeClaim (c : Claim) (hp : P h) : P (takeClaim c h) := by
  unfold Machine.takeClaim
  split
  · exact k.takeEngaged (k.home _ hp)
  · exact k.serveSelfRequest _ hp
  · exact k.applyGrantOutcome _ _ _ _ hp
  · exact k.applyGrantOutcome _ _ _ _ hp
  · exact k.takePurgeCause _ _ hp
  · exact k.takeRebuildExpiry hp

theorem takeArrived (q : Claim → Bool) (hp : P h) : P (takeArrived q h) := by
  unfold Machine.takeArrived
  split
  · split
    · exact k.takeClaim _ (k.home _ hp)
    · exact hp
  · exact hp

theorem takeArrivals (j : Nat) (hp : P h) : P (takeArrivals j h) := by
  induction j generalizing h with
  | zero => exact hp
  | succ j ih => exact ih (k.takeArrived _ hp)

theorem settleArrivals (hp : P h) : P (settleArrivals h) := k.takeArrivals _ hp

theorem takeWaiting (j : Nat) (hp : P h) : P (takeWaiting j h) := by
  induction j generalizing h with
  | zero => exact hp
  | succ j ih =>
    refine ih ?_
    unfold takeHead
    split
    · exact k.takeClaim _ (k.home _ hp)
    · exact hp

theorem endEngagement {f : Hw → Hw} (hf : ∀ g, P g → P (f g)) (hp : P h) : P (endEngagement f h) :=
  k.takeWaiting _ (hf _ (k.home _ hp))

theorem finishPurge (hp : P h) : P (finishPurge h) := by
  unfold Machine.finishPurge
  split
  · exact hp
  · exact k.takeWaiting _ (k.endPurge _ hp)

end HomeKept

namespace StationKept

variable {P : Hw → Prop} {h : Hw}

theorem inOrder {f g : Hw → Hw} (ef : Bool) (hf : ∀ x, P x → P (f x)) (hg : ∀ x, P x → P (g x)) (hp : P h) :
    P (inOrder ef f g h) := by
  unfold Machine.inOrder
  split
  · exact hg _ (hf _ hp)
  · exact hf _ (hg _ hp)

theorem present_unawait (s : StationId) (g : Hw) (hs : g.scu.station.present = true) :
    (Machine.unawait s g).scu.station.present = true := by
  unfold Machine.unawait
  split
  · dsimp only
    split
    · simp [StationState.present]
    · exact hs
  · exact hs

@[simp] theorem deliverPurgeCause_scu (s : StationId) (ev : Bool) (g : Hw) :
    (Machine.deliverPurgeCause s ev g).scu = g.scu := by
  unfold Machine.deliverPurgeCause
  split <;> rfl

/-- The waits issued again leave the station state. -/
theorem reissueWaits_scu (s : StationId) (g : Hw) : (Machine.reissueWaits s g).scu = g.scu := by
  have one : ∀ n x, (Machine.reissueSlot s n x).scu = x.scu := by
    intro n x
    unfold Machine.reissueSlot Machine.removeCancel
    dsimp only
    split
    · rfl
    · split
      · exact issueOperation_scu x n
      · split
        · rfl
        · split
          · exact endRecordedCancel_scu _ n
          · rfl
      all_goals rfl
  exact TrackerKept.forSlots (P := fun x => x.scu = g.scu) (fun n x hx => (one n x).trans hx) rfl

end StationKept

namespace HomeKept

variable {P : Hw → Prop} (k : HomeKept P) {h : Hw}
include k

/-! ### Deliveries of a completion -/

theorem peerLeft (s : StationId) (ef : Bool) (hp : P h) : P (peerLeft s ef h) := by
  unfold Machine.peerLeft
  split
  · exact StationKept.inOrder ef (fun _ => k.raised _) (fun _ hg => k.dropped _ (k.failWaits _ hg))
      (k.unawait _ (k.deliverPurgeCause _ _ hp))
  · exact hp

theorem peerJoined (s : StationId) (p : BitVec 16) (ef : Bool) (hp : P h) : P (peerJoined s p ef h) := by
  unfold Machine.peerJoined
  split
  · next hc =>
    have hq := k.unawait s (k.deliverPurgeCause s false hp)
    have hs : (Machine.unawait s (Machine.deliverPurgeCause s false h)).scu.station.present = true :=
      StationKept.present_unawait s _ (by simpa using hc.1)
    unfold Machine.inOrder
    split
    · exact k.added s (by simpa [StationKept.reissueWaits_scu] using hs) (k.reissueWaits s (k.raised _ hq))
    · exact k.raised _ (k.added s (by simpa [StationKept.reissueWaits_scu] using hs) (k.reissueWaits s hq))
  · exact hp

theorem observerCompleted (s : StationId) (x : Transaction) (p : BitVec 16) (ef : Bool) (hp : P h) :
    P (observerCompleted s x p ef h) := by
  unfold Machine.observerCompleted
  split
  · exact k.peerJoined _ _ _ hp
  · exact k.peerLeft _ _ hp
  · exact k.deliverPurgeCause _ _ hp
  · split
    · unfold evicted
      split
      · exact StationKept.inOrder ef (fun _ => k.raised _) (fun _ => k.revokeByEvict _) hp
      · exact hp
    · exact hp
  all_goals exact hp

theorem responderCompleted (x : Transaction) (o : BusOutcome) (hp : P h) : P (responderCompleted x o h) := by
  unfold Machine.responderCompleted
  split
  · exact k.settleAnswer _ hp
  · refine k.endEngagement (fun g hg => ?_) hp
    split
    · exact hg
    · unfold applyDecision
      split
      · exact k.applyChanges (fun _ => id) _ hg
      · exact hg

theorem grantCompleted {x : Transaction} (o : BusOutcome) (hp : P h) (hk : P (returnPriority x h)) :
    P (grantCompleted x o h) := by
  unfold Machine.grantCompleted
  split
  · exact k.endEngagement (fun _ => id) hk
  · dsimp only
    split
    · exact k.addClaim _ (k.endEngagement (fun _ => id) (k.departGrant hp))
    · exact k.endEngagement (fun _ => id) (k.home _ (k.departGrant hp))

end HomeKept

namespace StationKept

variable {P : Hw → Prop} (k : StationKept P) {h : Hw}
include k

/-! ### Membership and station control -/

theorem declareLost (p : StationId) (ef : Bool) (hp : P h) : P (declareLost p ef h) :=
  inOrder ef (fun _ => k.raised _) (fun _ => k.failWaits _)
    (k.unawait _ (k.deliverPurgeCause _ _ (k.members _ hp)))

theorem enterDuplicate (hn : h.scu.station = .listening ∨ h.scu.station = .joining) (hp : P h) :
    P (enterDuplicate h) := by
  have hc : P { h with scu := { h.scu with station := .duplicate, listenTimer := none } } := by
    refine k.control ⟨rfl, rfl⟩ rfl ?_ ?_ hp
    · rcases hn with hn | hn <;> simp [hn, StationState.present]
    · rcases hn with hn | hn <;> simp [hn]
  have hm := k.members
    { h.mbu.mapMembers (fun _ m => { m with timer := none }) with beaconTimer := none } hc
  exact k.raised _ (k.removed _ hm)

theorem sighting (w : StationId) (i : Bool) (hp : P h) : P (sighting w i h) := by
  unfold Machine.sighting
  split
  · exact k.members _ hp
  · split
    · exact k.members _ hp
    · split
      · next hs => exact k.enterDuplicate (.inl hs) hp
      · next hs => exact k.enterDuplicate (.inr hs) hp
      all_goals exact hp

theorem membershipCompleted (r : TxRecord) (o : BusOutcome) (hp : P h) : P (membershipCompleted r o h) := by
  unfold Machine.membershipCompleted
  split
  · split
    · unfold peerAbsent
      split
      · exact hp
      · exact k.members _ hp
    · exact k.sighting _ _ hp
  · exact k.sighting _ _ hp

theorem ownJoin (p : BitVec 16) (hp : P h) : P (ownJoin p h) := by
  unfold Machine.ownJoin
  split
  · exact hp
  · next hj =>
    have hj' : h.scu.station = .joining := not_not.mp hj
    split
    · exact k.enterDuplicate (.inr hj') hp
    · split
      · have hc : P { h with scu := { h.scu with station := .online } } :=
          k.control ⟨rfl, rfl⟩ rfl (fun _ => rfl) (by simp [hj']) hp
        have hh := k.home (h.htu.entered 0 none) hc
        exact k.raised _ (k.members _ hh)
      · have hc : P { h with scu := { h.scu with station := .rebuilding } } :=
          k.control ⟨rfl, rfl⟩ rfl (fun _ => rfl) (by simp [hj']) hp
        have hh := k.home (h.htu.entered p (some (Config.rebuildPeriods * h.period))) hc
        exact k.raised _ (k.members _ hh)

/-! ### Completion -/

omit k in
/-- At the initiator the membership unit's part of a completion leaves every other block. -/
theorem membershipCompleted_initiator {r : TxRecord} (hr : r.role = .initiator) (o : BusOutcome) (g : Hw) :
    ∃ m, Machine.membershipCompleted r o g = { g with mbu := m } := by
  have hsight : ∃ m, Machine.sighting r.winner true g = { g with mbu := m } := by
    unfold Machine.sighting
    split
    · exact ⟨_, rfl⟩
    · exact ⟨_, rfl⟩
  unfold Machine.membershipCompleted
  simp only [hr, decide_true]
  split
  · split
    · unfold peerAbsent
      split
      · exact ⟨g.mbu, rfl⟩
      · exact ⟨_, rfl⟩
    · exact hsight
  · exact hsight

/-- The completion at the initiator, from the state with the record still open (R39, R40). -/
theorem initiatorCompleted {r : TxRecord} {x : Transaction} (hr : h.lbc.record = some r) (hx : r.entry = some x)
    (m : Mbu) (round : Round) (pr : BitVec 16) (o : BusOutcome) (hp : P h) :
    P (initiatorCompleted round x pr o { closeRecord h with mbu := m }) := by
  have hc : P { closeRecord h with mbu := m } := k.members _ (k.closed hp)
  have hkeep : ∀ ro, P (keepEntry ro x { closeRecord h with mbu := m }) := by
    intro ro
    have hk := k.members m (k.keptBack ro hr hx hp)
    cases ro <;> exact hk
  unfold Machine.initiatorCompleted
  split
  case h_1 hk => exact k.slotOutcome (by rw [hk]; rfl) o hc
  case h_2 hk => exact k.slotOutcome (by rw [hk]; rfl) o hc
  case h_3 hk => exact k.slotOutcome (by rw [hk]; rfl) o hc
  case h_4 hk => exact k.slotOutcome (by rw [hk]; rfl) o hc
  case h_5 => exact k.grantCompleted o hc (hkeep .priority)
  case h_6 hk => exact k.reassertOutcome hk o hc
  case h_7 => split <;> [exact hkeep _; exact hc]
  case h_8 => split <;> [exact hkeep _; exact hc]
  case h_9 => split <;> [exact hkeep _; exact k.ownJoin _ hc]
  case h_10 hk => split <;> [exact hkeep _; exact (k.left hr hx hk hp :)]
  case h_11 => split <;> [exact hkeep _; exact k.deliverPurgeCause _ _ (k.unflushed hc)]

theorem completeTransaction (l : Lines) (ef : Bool) (hp : P h) : P (completeTransaction l ef h) := by
  unfold Machine.completeTransaction
  split
  · exact hp
  · next r hr =>
    split
    · dsimp only
      generalize ho : settle (r.noteVoid r.error l.lvoid) = o
      have hc : P (Machine.membershipCompleted (r.noteVoid r.error l.lvoid) o (closeRecord h)) :=
        k.membershipCompleted _ _ (k.closed hp)
      unfold deliver
      dsimp only
      split
      · next hrole =>
        split
        · next x hx =>
          obtain ⟨m, hm⟩ := membershipCompleted_initiator hrole o (closeRecord h)
          rw [hm]
          exact k.initiatorCompleted hr hx m _ _ o hp
        · exact hc
      · split
        · exact k.responderCompleted _ _ hc
        · exact hc
      · split
        · split
          · exact hc
          · exact k.observerCompleted _ _ _ _ hc
        · exact hc
    · exact hp

/-! ### The phases on the lockbus -/

theorem arbitrate (pl nl : BitVec 16) (hp : P h) : P (arbitrate pl nl h) := by
  unfold Machine.arbitrate
  split
  · have hs := k.settleArrivals hp
    unfold holdRounds
    split
    · refine k.won (fun x hx => .inl ?_) hs
      unfold priorityCandidate at hx
      split at hx
      · exact List.mem_of_find?_eq_some hx
      · cases hx
    · split
      · refine k.won (fun x hx => .inr ?_) hs
        unfold normalCandidate at hx
        split at hx
        · exact List.mem_of_mem_head? hx
        · cases hx
      · exact hs
  · exact hp

theorem readRequestPhase (a b : Lines) (hp : P h) : P (readRequestPhase a b h) := by
  unfold Machine.readRequestPhase
  split
  · exact hp
  · next r hr =>
    split
    · exact k.record hr rfl hp
    · exact hp

theorem readResponsePhase (l : Lines) (hp : P h) : P (readResponsePhase l h) := by
  unfold Machine.readResponsePhase
  split
  · next r _ hr _ =>
    split
    · exact k.record hr rfl hp
    · exact hp
  · exact hp

/-- The open record is `e`, but for the stall this station drives. -/
def carries (e : Option TxRecord) (h : Hw) : Prop :=
  h.lbc.record.map (fun r => { r with lstall := false }) = e.map fun r => { r with lstall := false }

omit k in
theorem exists_of_carries {r : TxRecord} (hc : carries (some r) h) :
    ∃ b, h.lbc.record = some { r with lstall := b } := by
  obtain ⟨r', hr', he⟩ := Option.map_eq_some_iff.mp hc
  refine ⟨r'.lstall, hr'.trans (congrArg some ?_)⟩
  cases r
  cases r'
  simp only [TxRecord.mk.injEq] at he ⊢
  simpa using he

omit k in
theorem none_of_carries (hc : carries none h) : h.lbc.record = none := Option.map_eq_none_iff.mp hc

omit k in
/-- The tracker and the home leave the open record, but for the stall. -/
theorem carries_kept (e : Option TxRecord) : HomeKept (carries e) where
  holds _ := id
  slot _ _ := id
  ended _ _ _ _ hp := by simpa [carries] using hp
  placed _ := id
  returned _ := id
  removed _ := id
  claimed _ := id
  answer _ := id
  responses _ := id
  notice _ hp := by simpa [carries] using hp
  walk hp := by simpa [carries] using hp
  lowered hp := by simpa [carries] using hp
  finished _ hp := by simpa [carries, walkerFinish] using hp
  dropped _ hp := by
    unfold walkerDrop
    split
    · exact hp
    · split
      · simpa [carries, walkerFinish, removePriority] using hp
      · exact hp
  added _ _ hp := by
    unfold walkerAdd
    split
    · simpa [carries] using hp
    · dsimp only
      split
      · simpa [carries, removePriority] using hp
      · split <;> exact hp
  voided _ hp := by
    unfold reassertVoid
    split
    · dsimp only
      split <;> exact hp
    · exact hp
  home _ := id
  raised _ hp := by simpa [carries] using hp
  posted _ := id
  withdrawn _ := id
  lstall b hr hp := by
    rw [carries, hr] at hp
    exact hp
  online _ := id

theorem startObservation (l : Lines) (hp : P h) : P (startObservation l h) := by
  unfold Machine.startObservation
  split
  · exact hp
  · next r hr =>
    split
    · dsimp only
      split
      · obtain ⟨b, hr'⟩ := exists_of_carries ((carries_kept (some r)).settleArrivals (h := h) (by rw [carries, hr]))
        exact k.record (h := (Machine.settleArrivals h).setHtu _) hr' rfl (k.home _ (k.settleArrivals hp))
      · exact k.record hr rfl hp
      · exact k.record hr rfl hp
    · exact hp

theorem closeObservation (l : Lines) (hp : P h) : P (closeObservation l h) := by
  unfold Machine.closeObservation
  split
  · exact hp
  · next r hr =>
    split
    · dsimp only
      split
      · exact k.record hr rfl hp
      · obtain ⟨b, hr'⟩ := exists_of_carries ((carries_kept (some r)).takeEngaged (h := h) (by rw [carries, hr]))
        unfold answerGrant
        split
        · split
          · exact k.takeGrant _ _ (k.record hr' rfl (k.takeEngaged hp))
          · exact k.record hr' rfl (k.takeEngaged hp)
        · exact k.record hr' rfl (k.takeEngaged hp)
    · exact hp

/-! ### Pins, station commands, port accesses and timers -/

theorem fallCrst (hp : P h) : P (fallCrst h) := by
  unfold Machine.fallCrst
  split
  · next hm => exact k.flushed hm hp
  · exact hp

theorem setStatus (c : CommandStatus) (hp : P h) : P (setStatus c h) := k.control ⟨rfl, rfl⟩ rfl id Iff.rfl hp

theorem joinCommand (hp : P h) : P (joinCommand h) := by
  unfold Machine.joinCommand
  split
  · next hc =>
    have hm : P (h.setMember h.id { state := .self, timer := none }) := k.members _ hp
    unfold takeJoin
    exact k.control ⟨rfl, rfl⟩ rfl (by simp [hc.1, StationState.present]) (by simp [hc.1]) hm
  · exact k.setStatus _ hp

theorem leaveCommand (hp : P h) : P (leaveCommand h) := by
  unfold Machine.leaveCommand
  split
  · next hs => exact k.leaving hs hp
  · exact k.setStatus _ hp

theorem flushCommand (hp : P h) : P (flushCommand h) := by
  unfold Machine.flushCommand
  split
  · next hm => exact k.flushed (h := Machine.setStatus .taken h) hm (k.setStatus _ hp)
  · exact k.setStatus _ hp

theorem queueRead (be : BitVec 4) (hp : P h) : P (queueRead be h) := by
  unfold Machine.queueRead
  split
  · exact k.pins _ hp
  · exact k.headRead hp

theorem writeConfig {r : ConfigRegister} {w : Word} {g : Hw} (hp : P h) (hg : writeConfig r w h = some g) : P g := by
  cases r with
  | routes j =>
    simp only [Machine.writeConfig, Option.map_eq_some_iff] at hg
    obtain ⟨rs, -, hg⟩ := hg
    have hc := k.control (h := h) (c := h.scu.setRoutes j rs) (by simp [Scu.setRoutes]) (by simp [Scu.setRoutes]) (by simp [Scu.setRoutes])
      (by simp [Scu.setRoutes]) hp
    rwa [← hg]
  | station =>
    simp only [Machine.writeConfig, Option.map_eq_some_iff] at hg
    obtain ⟨f, -, hg⟩ := hg
    have hl : P { h with cqu := h.cqu.changeModes h.scu.lineModes f.modes } := by
      refine k.lines (fun j => ?_) hp
      simp only [get_eq_getElem, Vector.getElem_ofFn]
      split <;> simp
    have hc := k.control (c := h.scu.setConfig f) (by simp [Scu.setConfig]) (by simp [Scu.setConfig]) (by simp [Scu.setConfig])
      (by simp [Scu.setConfig]) hl
    rwa [← hg]

theorem configWrite (r : ConfigRegister) (w : Word) (hp : P h) : P (configWrite r w h) := by
  have status : ∀ c g, P g → P (setConfigStatus c g) := fun c g hg =>
    k.control (h := g) (c := { g.scu with configStatus := c }) ⟨rfl, rfl⟩ rfl id Iff.rfl hg
  unfold Machine.configWrite
  split
  · exact status _ _ hp
  · split
    · exact status _ _ hp
    · next g hg => exact status _ _ (k.writeConfig hp hg)

theorem beaconExpiry (hp : P h) : P (beaconExpiry h) := by
  unfold Machine.beaconExpiry
  split
  · refine k.members _ ?_
    split
    · exact k.listed (.inl rfl) hp
    · exact hp
  · exact hp

theorem silenceExpiry (p : StationId) (ef : Bool) (hp : P h) : P (silenceExpiry p ef h) := by
  unfold Machine.silenceExpiry
  split
  · exact k.declareLost _ _ hp
  · exact hp

theorem listenExpiry (hp : P h) : P (listenExpiry h) := by
  unfold Machine.listenExpiry
  split
  · next hc =>
    have hs : P { h with scu := { h.scu with station := .joining, listenTimer := none } } :=
      k.control ⟨rfl, rfl⟩ rfl (by simp [hc.2, StationState.present]) (by simp [hc.2]) hp
    exact k.listed (.inr rfl) hs
  · exact hp

theorem rebuildExpiry (hp : P h) : P (rebuildExpiry h) := by
  refine k.takeArrived _ ?_
  split
  · exact k.addClaim _ (k.home _ hp)
  · exact hp

theorem pulseEnd (j : LineId) (hp : P h) : P (pulseEnd j h) := by
  unfold Machine.pulseEnd
  split
  · refine k.lines (v := h.cqu.lines.set j.val (h.cqu.lines.get j).endPulse j.isLt) (fun i => ?_) hp
    simp only [get_eq_getElem, Vector.getElem_set]
    split
    · next hij =>
      simp only [Line.endPulse, ← hij]
      omega
    · exact Nat.le_refl _
  · exact hp

theorem tickHw (hp : P h) : P (tickHw h) := by
  have hs : P { h with scu := { h.scu with listenTimer := countDown h.scu.listenTimer } } := k.control ⟨rfl, rfl⟩ rfl id Iff.rfl hp
  have hl := k.lines (v := h.cqu.lines.map Line.tick) (fun j => by
    simp only [get_eq_getElem, Vector.getElem_map, Line.tick]
    split <;> exact Nat.le_refl _) (k.ticked hs)
  exact k.members _ (k.home { h.htu with rebuildTimer := countDown h.htu.rebuildTimer } hl)

omit k in
theorem atPort {f : Hw → Hw} (hf : P h → P (f h)) (hp : P h) : P (atPort f h) := by
  unfold Machine.atPort
  split
  · exact hp
  · exact hf hp

/-- Every command keeps the property, where those that sample the straps do. -/
theorem effect (c : Instr) (hpor : ∀ i b, c = .powerOnReset i b → P (powerOnReset i b h))
    (hrel : ∀ i b, c = .porNRelease i b → P (releasePor i b h)) (hp : P h) : P (effect c h) := by
  cases c
  case powerOnReset => exact hpor _ _ rfl
  case porNRelease => exact hrel _ _ rfl
  case stationReset => exact k.pins _ (k.reset .none hp)
  case srstNRelease => exact k.pins _ hp
  case crstN => exact k.fallCrst hp
  case join => exact atPort k.joinCommand hp
  case leave => exact atPort k.leaveCommand hp
  case flush => exact atPort k.flushCommand hp
  case reset => exact atPort (k.reset _) hp
  case stationCommandInvalid => exact atPort (k.setStatus _) hp
  case acquire => exact atPort (k.acquireCommand _ _ _) hp
  case release => exact atPort (k.releaseCommand _) hp
  case downgrade => exact atPort (k.downgradeCommand _) hp
  case cancel => exact atPort k.cancelCommand hp
  case slotCommandInvalid => exact atPort (k.refuse _) hp
  case slotParameterWrite => exact atPort (k.limits _) hp
  case queueHeadRead => exact k.queueRead _ hp
  case configurationWrite => exact atPort (k.configWrite _ _) hp
  case portWriteIgnored => exact hp
  case arbitration => exact k.arbitrate _ _ hp
  case requestPhase => exact k.readRequestPhase _ _ hp
  case observationPhase => exact k.startObservation _ hp
  case observationClose => exact k.closeObservation _ hp
  case responsePhase => exact k.readResponsePhase _ hp
  case completion => exact k.completeTransaction _ _ hp
  case lockTransactionClaim => exact k.takeEngaged hp
  case selfHomedRequest => exact k.takeArrived _ hp
  case selfHomedResponse => exact k.takeSlotResponse hp
  case grantOutcome => exact k.takeArrived _ hp
  case internalGrantOutcome => exact k.takeArrived _ hp
  case purgeCause => exact k.takeArrived _ hp
  case purgeEnd => exact k.finishPurge hp
  case waitTimerExpiry => exact k.waitExpiry hp
  case backoffTimerExpiry => exact k.backoffExpiry hp
  case beaconTimerExpiry => exact k.beaconExpiry hp
  case silenceTimerExpiry => exact k.silenceExpiry _ _ hp
  case listenWindowExpiry => exact k.listenExpiry hp
  case rebuildTimerExpiry => exact k.rebuildExpiry hp
  case notifyPulse => exact k.pulseEnd _ hp

end StationKept

/-- A property that each move of the station keeps, and the sampling of the straps and the configuration's defaults. -/
structure SampledKept (P : Hw → Prop) : Prop extends StationKept P where
  sampled {h : Hw} {c : Scu} : c.station = h.scu.station → c.flushing = h.scu.flushing → P h → P { h with scu := c }

namespace SampledKept

variable {P : Hw → Prop} (k : SampledKept P) {h : Hw}
include k

theorem powerOnReset (i : StationId) (b : Fin 4) (hp : P h) : P (powerOnReset i b h) := by
  have hc : P { stationReset .none h with scu := .reset i b } := k.sampled rfl rfl (k.reset .none hp)
  exact k.pins _ hc

theorem releasePor (i : StationId) (b : Fin 4) (hp : P h) : P (releasePor i b h) := by
  unfold Machine.releasePor
  split
  · have hc : P { h with scu := { h.scu with id := i, bpsel := b } } := k.sampled rfl rfl hp
    exact k.pins _ hc
  · exact hp

/-- Every step keeps the property. -/
theorem step {s t : State} (hp : P s.hw) (ht : step s = .next t) : P t.hw :=
  step_keeps (k.tickHw hp)
    (fun c => k.effect c (fun i b _ => k.powerOnReset i b hp) (fun i b _ => k.releasePor i b hp) hp) ht

end SampledKept

end Sys2Proof.Machine
end

section
/-! The law of the hold table (O57), and the laws of the counts, the walker and the queue (parts of O59): each is kept by
the moves of the station, so every step keeps it. -/

namespace Sys2Proof.Machine

/-! ### The hold table (R73, R174) -/

theorem startFlush_holds (h : Hw) : (startFlush h).rqt.holds = [] := rfl

theorem walkerFinish_law (s : StationId) (h : Hw) (hl : holdTableLaw h.rqt.holds) :
    holdTableLaw (walkerFinish s h).rqt.holds := walkerAct_law _ (clearMarks_law s hl)

theorem walkerDrop_law (s : StationId) (h : Hw) (hl : holdTableLaw h.rqt.holds) :
    holdTableLaw (walkerDrop s h).rqt.holds := by
  unfold walkerDrop
  split
  · exact hl
  · split
    · exact walkerFinish_law s _ hl
    · exact hl

theorem walkerAdd_law (s : StationId) (h : Hw) (hl : holdTableLaw h.rqt.holds) :
    holdTableLaw (walkerAdd s h).rqt.holds := by
  unfold walkerAdd
  split
  · exact walkerAct_law _ hl
  · dsimp only
    split
    · exact walkerAct_law _ (clearMarks_law s hl)
    · split <;> exact hl

theorem reassertVoid_rqt_holds (x : Transaction) (h : Hw) : (reassertVoid x h).rqt.holds = h.rqt.holds := by
  unfold reassertVoid
  split
  · dsimp only
    split <;> rfl
  · rfl

/-- The station with its flush over, before the walker acts: the flag clear and the aborted slots IDLE (R162). -/
def flushCleared (h : Hw) : Hw :=
  { h with scu := { h.scu with flushing := false }, rqt := h.rqt.mapSlots endAbort }

/-- The end of a flush: the walker acts on the cleared station, FLUSH_DONE is raised, and the LEAVE of a station in
LEAVING is placed. -/
theorem endFlush_eq (h : Hw) :
    endFlush h = if h.scu.station = .leaving then
      placeNormal { kind := .leave } (raiseEvent .flushDone (walkerAct (flushCleared h)))
      else raiseEvent .flushDone (walkerAct (flushCleared h)) := by
  unfold endFlush flushCleared
  simp only [raiseEvent_scu, walkerAct_scu]

theorem endFlush_law (h : Hw) (hl : holdTableLaw h.rqt.holds) : holdTableLaw (endFlush h).rqt.holds := by
  have hw : holdTableLaw (walkerAct (flushCleared h)).rqt.holds := walkerAct_law _ hl
  rw [endFlush_eq]
  split <;> simpa using hw

theorem takeLeave_holds (h : Hw) :
    (takeLeave h).rqt.holds = if h.scu.flushing = true then h.rqt.holds else [] := by
  unfold takeLeave
  dsimp only
  split <;> rfl

theorem readHead_rqt_holds (h : Hw) : (readHead h).rqt.holds = h.rqt.holds := by
  unfold readHead
  split
  · rfl
  · unfold afterRead
    split
    · unfold readDone
      split <;> rfl
    · rfl
    · rfl

theorem wonBy_holds (w : StationId) (round : Round) (c : Option Transaction) (h : Hw) :
    (wonBy w round c h).rqt.holds = h.rqt.holds := by
  unfold wonBy tellWin leaveList
  dsimp only
  split
  · cases round <;> dsimp only <;> split <;> [split; split; split; split] <;> rfl
  · rfl

/-- Every move of the station keeps the law of the hold table. -/
theorem holdTable_kept : SampledKept fun h => holdTableLaw h.rqt.holds where
  holds hk hp := hk hp
  slot _ _ hp := hp
  ended c d m _ hp := endOperation_law _ c d m _ hp
  placed _ hp := hp
  returned _ hp := hp
  removed _ hp := hp
  claimed _ hp := hp
  answer _ hp := hp
  responses _ hp := hp
  notice _ hp := by simpa using hp
  walk hp := walkerAct_law _ hp
  lowered hp := walkerAct_law _ hp
  finished s hp := walkerFinish_law s _ hp
  dropped s hp := walkerDrop_law s _ hp
  added s _ hp := walkerAdd_law s _ hp
  voided _ hp := by rwa [reassertVoid_rqt_holds]
  home _ hp := hp
  raised _ hp := by simpa using hp
  posted _ hp := hp
  withdrawn _ hp := hp
  record _ _ hp := hp
  control _ _ _ _ hp := hp
  sampled _ _ hp := hp
  members _ hp := hp
  pins _ hp := hp
  limits _ hp := hp
  listed _ hp := hp
  closed hp := hp
  lines _ hp := hp
  ticked hp := hp
  reset _ _ := empty_holdTableLaw
  flushed _ _ := empty_holdTableLaw
  unflushed hp := endFlush_law _ hp
  leaving _ hp := by
    rw [takeLeave_holds]
    split
    · exact hp
    · exact empty_holdTableLaw
  headRead hp := by rwa [readHead_rqt_holds]
  won _ hp := by rwa [wonBy_holds]
  keptBack round _ _ hp := by cases round <;> exact hp
  left _ _ _ _ := by
    simp only [ownLeave, raiseEvent_rqt]
    exact empty_holdTableLaw

/-- Settles O57: every move of the tracker alters, removes or adds entries lawfully. -/
theorem holdTableLawKept : Obligations.HoldTableLawKept := fun _ _ hl ht => holdTable_kept.step hl ht

end Sys2Proof.Machine
end

section
/-! The counts with a ceiling of 4 and 255 (R108, R141) and the walker's law (R141, R143), parts of O59: each is kept by
the moves of the station. -/

namespace Sys2Proof.Machine

/-! ### REASSERTs outstanding (R141) -/

theorem walkerFinish_outstanding_le (s : StationId) (h : Hw) : (walkerFinish s h).rqt.outstanding ≤ 4 :=
  walkerAct_outstanding_le _ (Nat.zero_le 4)

theorem walkerDrop_outstanding_le (s : StationId) (h : Hw) (hl : h.rqt.outstanding ≤ 4) :
    (walkerDrop s h).rqt.outstanding ≤ 4 := by
  unfold walkerDrop
  split
  · exact hl
  · split
    · exact walkerFinish_outstanding_le s _
    · exact hl

theorem walkerAdd_outstanding_le (s : StationId) (h : Hw) (hl : h.rqt.outstanding ≤ 4) :
    (walkerAdd s h).rqt.outstanding ≤ 4 := by
  unfold walkerAdd
  split
  · exact walkerAct_outstanding_le _ hl
  · dsimp only
    split
    · exact walkerAct_outstanding_le _ ((Nat.sub_le _ _).trans hl)
    · split <;> exact hl

theorem reassertVoid_outstanding_le (x : Transaction) (h : Hw) (hl : h.rqt.outstanding ≤ 4) :
    (reassertVoid x h).rqt.outstanding ≤ 4 := by
  unfold reassertVoid
  split
  · dsimp only
    split <;> exact (Nat.sub_le _ _).trans hl
  · exact hl

theorem startFlush_outstanding_le (h : Hw) (hl : h.rqt.outstanding ≤ 4) : (startFlush h).rqt.outstanding ≤ 4 :=
  (Nat.sub_le _ _).trans hl

theorem endFlush_outstanding_le (h : Hw) (hl : h.rqt.outstanding ≤ 4) : (endFlush h).rqt.outstanding ≤ 4 := by
  have hw : (walkerAct (flushCleared h)).rqt.outstanding ≤ 4 := walkerAct_outstanding_le _ hl
  rw [endFlush_eq]
  split <;> simpa using hw

/-- The station in LEAVING, its rebuild over (R147). -/
def goneLeaving (h : Hw) : Hw :=
  { h with
    scu := { h.scu with station := .leaving, commandStatus := .taken }
    htu := { h.htu with awaited := 0, rebuildTimer := none } }

/-- A LEAVE command adopts the flush in progress, or starts one (R147). -/
theorem takeLeave_cases (h : Hw) :
    (h.scu.flushing = true ∧ takeLeave h = goneLeaving h)
      ∨ (h.scu.flushing = false ∧ takeLeave h = startFlush (goneLeaving h)) := by
  cases hf : h.scu.flushing
  · exact .inr ⟨rfl, takeLeave_starts h hf⟩
  · exact .inl ⟨rfl, takeLeave_flushing h hf⟩

/-- What a read of the head does to the tracker: a slot whose RESULT is read goes from DONE to IDLE (R105). -/
theorem readHead_rqt (h : Hw) :
    (readHead h).rqt = h.rqt ∨ ∃ n, (h.rqt.slot n).state = .done
      ∧ (readHead h).rqt = h.rqt.setSlot n (.idleWith (h.rqt.slot n).refusal (h.rqt.slot n).owed) := by
  unfold readHead
  split
  · exact .inl rfl
  · unfold afterRead
    split
    · next n _ _ _ _ _ _ =>
      unfold readDone
      split
      · next hs => exact .inr ⟨n, hs, rfl⟩
      · exact .inl rfl
    · exact .inl rfl
    · exact .inl rfl

/-- What the owner of the winning entry does in the tracker: a QUEUED_OUT slot goes ON_BUS (R31, R80). -/
theorem wonBy_rqt (w : StationId) (round : Round) (c : Option Transaction) (h : Hw) :
    (wonBy w round c h).rqt = h.rqt ∨ ∃ n, (h.rqt.slot n).state = .queuedOut
      ∧ (wonBy w round c h).rqt = h.rqt.setSlot n { h.rqt.slot n with state := .onBus } := by
  have hleave : (leaveList round h).rqt = h.rqt := by cases round <;> rfl
  unfold wonBy
  dsimp only
  split
  · next x _ =>
    unfold tellWin
    split
    · split
      · next hs =>
        refine .inr ⟨x.slot, ?_, ?_⟩
        · rwa [Hw.slot, hleave] at hs
        · simp only [Hw.setSlot, Hw.slot, hleave]
      · exact .inl hleave
    · split <;> exact .inl hleave
  · exact .inl rfl

/-- Every move of the station keeps the count of REASSERTs outstanding. -/
theorem outstanding_kept : SampledKept fun h => h.rqt.outstanding ≤ 4 where
  holds _ hp := hp
  slot _ _ hp := hp
  ended _ _ _ _ hp := by simpa using hp
  placed _ hp := hp
  returned _ hp := hp
  removed _ hp := hp
  claimed _ hp := hp
  answer _ hp := hp
  responses _ hp := hp
  notice _ hp := by simpa using hp
  walk hp := walkerAct_outstanding_le _ hp
  lowered hp := walkerAct_outstanding_le _ ((Nat.sub_le _ _).trans hp)
  finished s _ := walkerFinish_outstanding_le s _
  dropped s hp := walkerDrop_outstanding_le s _ hp
  added s _ hp := walkerAdd_outstanding_le s _ hp
  voided _ hp := reassertVoid_outstanding_le _ _ hp
  home _ hp := hp
  raised _ hp := by simpa using hp
  posted _ hp := hp
  withdrawn _ hp := hp
  record _ _ hp := hp
  control _ _ _ _ hp := hp
  sampled _ _ hp := hp
  members _ hp := hp
  pins _ hp := hp
  limits _ hp := hp
  listed _ hp := hp
  closed hp := hp
  lines _ hp := hp
  ticked hp := hp
  reset _ _ := Nat.zero_le _
  flushed _ hp := startFlush_outstanding_le _ hp
  unflushed hp := endFlush_outstanding_le _ hp
  leaving {h} _ hp := by
    obtain ⟨-, ht⟩ | ⟨-, ht⟩ := takeLeave_cases h <;> rw [ht]
    · exact hp
    · exact startFlush_outstanding_le _ hp
  headRead hp := by
    obtain hr | ⟨n, -, hr⟩ := readHead_rqt _ <;> rw [hr] <;> exact hp
  won {h w round c} _ hp := by
    obtain hr | ⟨n, -, hr⟩ := wonBy_rqt w round c h <;> rw [hr] <;> exact hp
  keptBack round _ _ hp := by cases round <;> exact hp
  left _ _ _ _ := by
    simp only [ownLeave, raiseEvent_rqt]
    exact Nat.zero_le _

/-! ### Pulses owed (R108) -/

/-- No line owes more pulses than its count holds. -/
def pulsesLaw (c : Cqu) : Prop := ∀ k, (c.lines.get k).owed ≤ 255

theorem appendEntry_pulses (e : QueueEntry) (h : Hw) (hl : pulsesLaw h.cqu) : pulsesLaw (appendEntry e h).cqu := by
  intro k
  rw [appendEntry_line]
  split
  · exact mark_owed_le _
  · exact hl k

theorem raiseEvent_pulses (ev : Event) (h : Hw) (hl : pulsesLaw h.cqu) : pulsesLaw (raiseEvent ev h).cqu := by
  unfold raiseEvent
  dsimp only
  split
  · exact appendEntry_pulses _ _ hl
  · exact hl

theorem requestNotice_pulses (n : SlotId) (h : Hw) (hl : pulsesLaw h.cqu) : pulsesLaw (requestNotice n h).cqu := by
  unfold requestNotice
  split
  · exact hl
  · exact appendEntry_pulses _ _ hl

theorem endOperation_pulses (n : SlotId) (c : ResultCode) (d : ResultDetail) (m : Option Mode) (h : Hw)
    (hl : pulsesLaw h.cqu) : pulsesLaw (endOperation n c d m h).cqu := by
  unfold endOperation
  split
  · exact hl
  · exact appendEntry_pulses _ _ hl

theorem reset_pulses : pulsesLaw .reset := fun k => by simp [Cqu.reset]

/-- What leaves the completion queue unit alone. -/
theorem walkerFinish_cqu (s : StationId) (h : Hw) : (walkerFinish s h).cqu = h.cqu := walkerAct_cqu _

theorem walkerDrop_cqu (s : StationId) (h : Hw) : (walkerDrop s h).cqu = h.cqu := by
  unfold walkerDrop
  split
  · rfl
  · split
    · exact walkerFinish_cqu s _
    · rfl

theorem walkerAdd_cqu (s : StationId) (h : Hw) : (walkerAdd s h).cqu = h.cqu := by
  unfold walkerAdd
  split
  · exact walkerAct_cqu _
  · dsimp only
    split
    · exact walkerAct_cqu _
    · split <;> rfl

theorem reassertVoid_cqu (x : Transaction) (h : Hw) : (reassertVoid x h).cqu = h.cqu := by
  unfold reassertVoid
  split
  · dsimp only
    split <;> rfl
  · rfl

theorem wonBy_cqu (w : StationId) (round : Round) (c : Option Transaction) (h : Hw) :
    (wonBy w round c h).cqu = h.cqu := by
  have hleave : (leaveList round h).cqu = h.cqu := by cases round <;> rfl
  unfold wonBy
  dsimp only
  split
  · unfold tellWin
    split
    · split <;> exact hleave
    · split <;> exact hleave
  · rfl

theorem readHead_lines (h : Hw) : (readHead h).cqu.lines = h.cqu.lines := by
  unfold readHead
  split
  · rfl
  · unfold afterRead
    split
    · unfold readDone
      split <;> rfl
    · rfl
    · rfl

theorem endFlush_pulses (h : Hw) (hl : pulsesLaw h.cqu) : pulsesLaw (endFlush h).cqu := by
  have hw : pulsesLaw (walkerAct (flushCleared h)).cqu := by rwa [walkerAct_cqu]
  rw [endFlush_eq]
  split
  · exact raiseEvent_pulses _ _ hw
  · exact raiseEvent_pulses _ _ hw

/-- Every move of the station keeps the counts of pulses owed. -/
theorem pulses_kept : SampledKept fun h => pulsesLaw h.cqu where
  holds _ hp := hp
  slot _ _ hp := hp
  ended c d m _ hp := endOperation_pulses _ c d m _ hp
  placed _ hp := hp
  returned _ hp := hp
  removed _ hp := hp
  claimed _ hp := hp
  answer _ hp := hp
  responses _ hp := hp
  notice n hp := requestNotice_pulses n _ hp
  walk hp := by rwa [walkerAct_cqu]
  lowered hp := by rwa [walkerAct_cqu]
  finished s hp := by rwa [walkerFinish_cqu]
  dropped s hp := by rwa [walkerDrop_cqu]
  added s _ hp := by rwa [walkerAdd_cqu]
  voided _ hp := by rwa [reassertVoid_cqu]
  home _ hp := hp
  raised ev hp := raiseEvent_pulses ev _ hp
  posted _ hp := hp
  withdrawn _ hp := hp
  record _ _ hp := hp
  control _ _ _ _ hp := hp
  sampled _ _ hp := hp
  members _ hp := hp
  pins _ hp := hp
  limits _ hp := hp
  listed _ hp := hp
  closed hp := hp
  lines hv hp := fun k => (hv k).trans (hp k)
  ticked hp := hp
  reset _ _ := reset_pulses
  flushed _ hp := hp
  unflushed hp := endFlush_pulses _ hp
  leaving {h} _ hp := by
    obtain ⟨-, ht⟩ | ⟨-, ht⟩ := takeLeave_cases h <;> rw [ht] <;> exact hp
  headRead hp := by
    unfold pulsesLaw at hp ⊢
    rwa [readHead_lines]
  won _ hp := by rwa [wonBy_cqu]
  keptBack round _ _ hp := by cases round <;> exact hp
  left _ _ _ hp := raiseEvent_pulses _ _ hp

/-! ### The walker (R141, R143) -/

theorem walkerPlaceOne_phase (h : Hw) : (walkerPlaceOne h).rqt.phase = none ↔ h.rqt.phase = none := by
  unfold walkerPlaceOne
  split
  · next hph =>
    split
    · split <;> simp [hph]
    · rfl
  · rfl

theorem walkerAct_phase (h : Hw) : (walkerAct h).rqt.phase = none ↔ h.rqt.phase = none := by
  simp only [walkerAct, walkerPlaceOne_phase]

/-- An act of the walker leaves its law true, where it has a phase exactly while it has a home, in a present station. -/
theorem walkerAct_walkerLaw {h : Hw} (hph : h.rqt.phase = none ↔ h.rqt.homes = [])
    (hpr : h.scu.station.present = false → h.rqt.phase = none) : walkerLaw (walkerAct h) := by
  refine ⟨?_, ?_, ?_⟩
  · rw [walkerAct_phase, walkerAct_rqt_homes]
    exact hph
  · rw [walkerAct_phase, walkerAct_scu]
    exact hpr
  · intro hs hf hsend
    obtain ⟨-, -, -, -, -, -, -, -, -, -, hstop⟩ := walkerAct_placed h
    refine hstop hs hf ?_ hsend
    rw [walkerAct_rqt_homes, Ne, ← hph, ← walkerAct_phase, hsend]
    simp

/-- A walk restarted with a list of homes, in a present station. -/
theorem restartWalk_walkerLaw {h : Hw} {q : Rqt} {homes : List StationId} {k : Nat}
    (hq : h.rqt = q.restartWalk homes k) (hpr : h.scu.station.present = false → homes = []) :
    walkerLaw (walkerAct h) := by
  cases homes with
  | nil => exact walkerAct_walkerLaw (by simp [hq, Rqt.restartWalk]) (by simp [hq, Rqt.restartWalk])
  | cons p l =>
    refine walkerAct_walkerLaw (by simp [hq, Rqt.restartWalk]) fun hs => ?_
    cases hpr hs

variable {h : Hw}

/-- A walk in a station that is not present has no home. -/
theorem homes_of_walkerLaw (hl : walkerLaw h) (hs : h.scu.station.present = false) : h.rqt.homes = [] :=
  hl.1.mp (hl.2.1 hs)

theorem walkerFinish_walkerLaw (s : StationId) (hl : walkerLaw h) : walkerLaw (walkerFinish s h) := by
  refine restartWalk_walkerLaw rfl fun hs => ?_
  rw [homes_of_walkerLaw hl hs]
  rfl

theorem walkerDrop_walkerLaw (s : StationId) (hl : walkerLaw h) : walkerLaw (walkerDrop s h) := by
  unfold walkerDrop
  split
  · exact hl
  · next p l hhomes =>
    split
    · exact walkerFinish_walkerLaw s (h := removePriority _ h) hl
    · next hne =>
      obtain ⟨hph, hpr, hsend⟩ := hl
      refine ⟨?_, hpr, hsend⟩
      rw [hhomes, List.erase_cons_tail (by simpa using hne)]
      rw [hhomes] at hph
      simpa using hph

theorem walkerAdd_walkerLaw (s : StationId) (hs : h.scu.station.present = true) (hl : walkerLaw h) :
    walkerLaw (walkerAdd s h) := by
  unfold walkerAdd
  split
  · exact restartWalk_walkerLaw rfl fun hc => by simp [hs] at hc
  · next p l hhomes =>
    dsimp only
    split
    · refine restartWalk_walkerLaw rfl fun (hc : h.scu.station.present = false) => ?_
      rw [hs] at hc
      cases hc
    · split
      · exact hl
      · obtain ⟨hph, hpr, hsend⟩ := hl
        refine ⟨?_, hpr, hsend⟩
        rw [hhomes] at hph ⊢
        simpa using hph

theorem reassertVoid_walkerLaw (x : Transaction) (hl : walkerLaw h) : walkerLaw (reassertVoid x h) := by
  obtain ⟨hph, hpr, hsend⟩ := hl
  unfold reassertVoid
  split
  · next hf =>
    dsimp only
    split
    · exact ⟨by simpa using hph, fun hs => by simp [hpr hs], fun _ hc => by simp_all⟩
    · exact ⟨hph, hpr, fun _ hc => by simp_all⟩
  · exact ⟨hph, hpr, hsend⟩

/-- A flush started: nothing is placed while it lasts (R159). -/
theorem startFlush_walkerLaw (hph : h.rqt.phase = none ↔ h.rqt.homes = [])
    (hpr : h.scu.station.present = false → h.rqt.phase = none) : walkerLaw (startFlush h) :=
  ⟨hph, hpr, fun _ hc => by cases hc⟩

/-- What the walker's law looks at. -/
theorem walkerLaw_of_eq {g : Hw} (hs : g.scu = h.scu) (hp : g.rqt.phase = h.rqt.phase)
    (hh : g.rqt.homes = h.rqt.homes) (ho : g.rqt.outstanding = h.rqt.outstanding) (hl : walkerLaw h) : walkerLaw g := by
  unfold walkerLaw at hl ⊢
  rwa [hs, hp, hh, ho]

theorem endFlush_walkerLaw (hl : walkerLaw h) : walkerLaw (endFlush h) := by
  have hw : walkerLaw (walkerAct (flushCleared h)) := walkerAct_walkerLaw hl.1 hl.2.1
  rw [endFlush_eq]
  split
  · exact walkerLaw_of_eq (by simp) (by simp) (by simp) (by simp) hw
  · exact walkerLaw_of_eq (by simp) (by simp) (by simp) (by simp) hw

theorem wonBy_scu (w : StationId) (round : Round) (c : Option Transaction) (h : Hw) :
    (wonBy w round c h).scu = h.scu := by
  have hleave : (leaveList round h).scu = h.scu := by cases round <;> rfl
  unfold wonBy
  dsimp only
  split
  · unfold tellWin
    split
    · split <;> exact hleave
    · split <;> exact hleave
  · rfl

theorem readHead_scu (h : Hw) : (readHead h).scu = h.scu := by
  unfold readHead
  split
  · rfl
  · unfold afterRead
    split
    · unfold readDone
      split <;> rfl
    · rfl
    · rfl

/-- Every move of the station keeps the walker's law. -/
theorem walker_kept : SampledKept walkerLaw where
  holds _ hp := hp
  slot _ _ hp := hp
  ended _ _ _ _ hp := walkerLaw_of_eq (by simp) (by simp) (by simp) (by simp) hp
  placed _ hp := hp
  returned _ hp := hp
  removed _ hp := hp
  claimed _ hp := hp
  answer _ hp := hp
  responses _ hp := hp
  notice _ hp := walkerLaw_of_eq (by simp) (by simp) (by simp) (by simp) hp
  walk hp := walkerAct_walkerLaw hp.1 hp.2.1
  lowered hp := walkerAct_walkerLaw hp.1 hp.2.1
  finished s hp := walkerFinish_walkerLaw s hp
  dropped s hp := walkerDrop_walkerLaw s hp
  added s hs hp := walkerAdd_walkerLaw s hs hp
  voided _ hp := reassertVoid_walkerLaw _ hp
  home _ hp := hp
  raised _ hp := walkerLaw_of_eq (by simp) (by simp) (by simp) (by simp) hp
  posted _ hp := hp
  withdrawn _ hp := hp
  record _ _ hp := hp
  sampled hs hf hp := by
    unfold walkerLaw
    rwa [hs, hf]
  control {h c} _ hf hs _ hp := by
    obtain ⟨hph, hpr, hsend⟩ := hp
    refine ⟨hph, fun hc => hpr ?_, fun hc hfl hphase => ?_⟩
    · exact Bool.eq_false_iff.mpr fun ht => by simp [hs ht] at hc
    · refine hsend ?_ (hf ▸ hfl) hphase
      by_contra hn
      have hnone := hpr (Bool.eq_false_iff.mpr hn)
      rw [show h.rqt.phase = some .sending from hphase] at hnone
      cases hnone
  members _ hp := hp
  pins _ hp := hp
  limits _ hp := hp
  listed _ hp := hp
  closed hp := hp
  lines _ hp := hp
  ticked hp := hp
  reset _ _ := ⟨by simp [stationReset, Rqt.reset], fun _ => rfl, fun hs => by cases hs⟩
  flushed _ hp := startFlush_walkerLaw hp.1 hp.2.1
  unflushed hp := endFlush_walkerLaw hp
  leaving {h} _ hp := by
    have hgone : (goneLeaving h).scu.station.present = false → (goneLeaving h).rqt.phase = none := fun hc => by cases hc
    obtain ⟨hf, ht⟩ | ⟨-, ht⟩ := takeLeave_cases h <;> rw [ht]
    · exact ⟨hp.1, hgone, fun _ hc => by simp [goneLeaving, hf] at hc⟩
    · exact startFlush_walkerLaw hp.1 hgone
  headRead {h} hp := by
    obtain hr | ⟨n, -, hr⟩ := readHead_rqt h
    · exact walkerLaw_of_eq (readHead_scu h) (by rw [hr]) (by rw [hr]) (by rw [hr]) hp
    · exact walkerLaw_of_eq (readHead_scu h) (by rw [hr]; rfl) (by rw [hr]; rfl) (by rw [hr]; rfl) hp
  won {h w round c} _ hp := by
    obtain hr | ⟨n, -, hr⟩ := wonBy_rqt w round c h
    · exact walkerLaw_of_eq (wonBy_scu w round c h) (by rw [hr]) (by rw [hr]) (by rw [hr]) hp
    · exact walkerLaw_of_eq (wonBy_scu w round c h) (by rw [hr]; rfl) (by rw [hr]; rfl) (by rw [hr]; rfl) hp
  keptBack round _ _ hp := by cases round <;> exact hp
  left _ _ _ _ := ⟨by simp [ownLeave, Rqt.reset], fun _ => by simp [ownLeave, Rqt.reset],
    fun hs => by simp [ownLeave, StationState.present] at hs⟩

end Sys2Proof.Machine
end

section
/-! The completion queue's law (part of O59), in its three parts: the RESULTs and the slots, the NOTICEs and the STATION
entry, and the place of the LEAVE. Each is kept by the moves of the station. -/

namespace Sys2Proof.Machine

/-! ### NOTICEs and the STATION entry (R100, R103) -/

/-- A NOTICE exactly while the slot's mark is set, the STATION entry exactly while an event is raised. -/
def noticeLaw (c : Cqu) : Prop :=
  (∀ n, c.queue.count (.notice n) = (c.notice n).toNat)
    ∧ c.queue.count .station = if c.events = .empty then 0 else 1

variable {h : Hw}

theorem notice_setNotice (c : Cqu) (n m : SlotId) (b : Bool) :
    (c.setNotice n b).notice m = if m = n then b else c.notice m := by
  simp only [Cqu.setNotice, Cqu.notice, get_eq_getElem, Vector.getElem_set, Fin.ext_iff, eq_comm]

@[simp] theorem setNotice_queue (c : Cqu) (n : SlotId) (b : Bool) : (c.setNotice n b).queue = c.queue := rfl

@[simp] theorem setNotice_events (c : Cqu) (n : SlotId) (b : Bool) : (c.setNotice n b).events = c.events := rfl

/-- The mark of a slot after an append or a raise. -/
theorem notice_of_notices {c d : Cqu} (hc : c.notices = d.notices) (n : SlotId) : c.notice n = d.notice n := by
  rw [Cqu.notice, hc, Cqu.notice]

theorem appendEntry_result_notices (n : SlotId) (op : Op) (l : LockId) (m : Option Mode) (c : ResultCode)
    (d : ResultDetail) (hl : noticeLaw h.cqu) : noticeLaw (appendEntry (.result n op l m c d) h).cqu := by
  obtain ⟨hn, hs⟩ := hl
  refine ⟨fun k => ?_, ?_⟩
  · rw [notice_of_notices (appendEntry_notices h _), ← hn k]
    simp [List.count_append]
  · simpa [List.count_append] using hs

theorem endOperation_notices (n : SlotId) (c : ResultCode) (d : ResultDetail) (m : Option Mode)
    (hl : noticeLaw h.cqu) : noticeLaw (endOperation n c d m h).cqu := by
  unfold endOperation
  split
  · exact hl
  · exact appendEntry_result_notices _ _ _ _ _ _ hl

theorem requestNotice_notices (n : SlotId) (hl : noticeLaw h.cqu) : noticeLaw (requestNotice n h).cqu := by
  obtain ⟨hn, hs⟩ := hl
  unfold requestNotice
  split
  · exact ⟨hn, hs⟩
  · next hno =>
    refine ⟨fun k => ?_, ?_⟩
    · rw [notice_of_notices (appendEntry_notices _ _), notice_setNotice, appendEntry_queue, List.count_append,
        setNotice_queue, hn k]
      by_cases hkn : k = n
      · subst hkn
        simp [hno]
      · simp [hkn, Ne.symm hkn]
    · simpa [List.count_append] using hs

theorem raiseEvent_notices_law (ev : Event) (hl : noticeLaw h.cqu) : noticeLaw (raiseEvent ev h).cqu := by
  obtain ⟨hn, hs⟩ := hl
  refine ⟨fun k => ?_, ?_⟩
  · rw [notice_of_notices (raiseEvent_notices h ev), ← hn k, raiseEvent_queue]
    split
    · simp [List.count_append]
    · rfl
  · rw [raiseEvent_queue, raiseEvent_events, if_neg (raise_ne_empty _ _)]
    split
    · next he => simp [List.count_append, hs, he]
    · next he => rw [hs, if_neg he]

theorem flush_notices (hl : noticeLaw h.cqu) : noticeLaw h.cqu.flush := by
  refine ⟨fun k => ?_, ?_⟩
  · simp [Cqu.flush, Cqu.notice, get_eq_getElem, List.count_eq_zero]
  · rw [show h.cqu.flush.events = h.cqu.events from rfl, ← hl.2]
    simp [Cqu.flush, List.count_filter]

theorem readHead_notices_law (hl : noticeLaw h.cqu) : noticeLaw (readHead h).cqu := by
  obtain ⟨hn, hs⟩ := hl
  unfold readHead
  split
  · exact ⟨hn, hs⟩
  · next e rest hq =>
    rw [hq] at hn hs
    unfold afterRead
    cases e with
    | result n op l m c d =>
      have hc : noticeLaw { h.cqu with queue := rest } :=
        ⟨fun k => (List.count_cons_of_ne (by simp)).symm.trans (hn k),
          (List.count_cons_of_ne (by simp)).symm.trans hs⟩
      unfold readDone
      dsimp only
      split <;> exact hc
    | notice n =>
      refine ⟨fun k => ?_, (List.count_cons_of_ne (by simp)).symm.trans hs⟩
      have hk := hn k
      simp only [setReadData_cqu, notice_setNotice, setNotice_queue]
      by_cases hkn : k = n
      · subst hkn
        rw [List.count_cons_self] at hk
        have := Bool.toNat_le (h.cqu.notice k)
        rw [if_pos rfl, Bool.toNat_false]
        omega
      · rw [if_neg hkn]
        exact (List.count_cons_of_ne (by simpa using Ne.symm hkn)).symm.trans hk
    | station =>
      refine ⟨fun k => (List.count_cons_of_ne (by simp)).symm.trans (hn k), ?_⟩
      rw [List.count_cons_self] at hs
      have : rest.count .station = 0 := by split at hs <;> omega
      simpa using this

theorem reset_noticeLaw : noticeLaw .reset :=
  ⟨fun k => by simp [Cqu.reset, Cqu.notice, get_eq_getElem], by simp [Cqu.reset]⟩

theorem endFlush_notices (hl : noticeLaw h.cqu) : noticeLaw (endFlush h).cqu := by
  have hw : noticeLaw (walkerAct (flushCleared h)).cqu := by rwa [walkerAct_cqu]
  rw [endFlush_eq]
  split
  · exact raiseEvent_notices_law _ hw
  · exact raiseEvent_notices_law _ hw

/-- Every move of the station keeps the law of the NOTICEs and of the STATION entry. -/
theorem notice_kept : SampledKept fun h => noticeLaw h.cqu where
  holds _ hp := hp
  slot _ _ hp := hp
  ended c d m _ hp := endOperation_notices _ c d m hp
  placed _ hp := hp
  returned _ hp := hp
  removed _ hp := hp
  claimed _ hp := hp
  answer _ hp := hp
  responses _ hp := hp
  notice n hp := requestNotice_notices n hp
  walk hp := by rwa [walkerAct_cqu]
  lowered hp := by rwa [walkerAct_cqu]
  finished s hp := by rwa [walkerFinish_cqu]
  dropped s hp := by rwa [walkerDrop_cqu]
  added s _ hp := by rwa [walkerAdd_cqu]
  voided _ hp := by rwa [reassertVoid_cqu]
  home _ hp := hp
  raised ev hp := raiseEvent_notices_law ev hp
  posted _ hp := hp
  withdrawn _ hp := hp
  record _ _ hp := hp
  control _ _ _ _ hp := hp
  sampled _ _ hp := hp
  members _ hp := hp
  pins _ hp := hp
  limits _ hp := hp
  listed _ hp := hp
  closed hp := hp
  lines _ hp := hp
  ticked hp := hp
  reset _ _ := reset_noticeLaw
  flushed _ hp := flush_notices hp
  unflushed hp := endFlush_notices hp
  leaving {h} _ hp := by
    obtain ⟨-, ht⟩ | ⟨-, ht⟩ := takeLeave_cases h <;> rw [ht]
    · exact hp
    · exact flush_notices hp
  headRead hp := readHead_notices_law hp
  won _ hp := by rwa [wonBy_cqu]
  keptBack round _ _ hp := by cases round <;> exact hp
  left _ _ _ hp := raiseEvent_notices_law _ hp

/-! ### The place of the LEAVE (R148) -/

/-- A LEAVE stands in a list or on the lockbus only in LEAVING. -/
def leaveLaw (h : Hw) : Prop :=
  ∀ x, (x ∈ h.lbc.normal ∨ x ∈ h.lbc.priority ∨ entryOnBus h = some x) → x.kind = .leave → h.scu.station = .leaving

/-- Lists and a record that hold only old entries, and others that are no LEAVE. -/
theorem leaveLaw_of_sub {g : Hw} (hl : leaveLaw h) (hs : g.scu.station = .leaving ↔ h.scu.station = .leaving)
    (hn : ∀ x ∈ g.lbc.normal, x.kind = .leave → x ∈ h.lbc.normal ∨ entryOnBus h = some x)
    (hp : ∀ x ∈ g.lbc.priority, x.kind = .leave → x ∈ h.lbc.priority ∨ entryOnBus h = some x)
    (he : ∀ x, entryOnBus g = some x → x.kind = .leave →
      x ∈ h.lbc.normal ∨ x ∈ h.lbc.priority ∨ entryOnBus h = some x) : leaveLaw g := by
  intro x hx hk
  refine hs.mpr (hl x ?_ hk)
  rcases hx with hx | hx | hx
  · exact (hn x hx hk).elim .inl (fun h => .inr (.inr h))
  · exact .inr (hp x hx hk)
  · exact he x hx hk

/-- Lists that gain only entries that are no LEAVE, the record and the station as they were. -/
theorem leaveLaw_of_lists {g : Hw} (hl : leaveLaw h) (hs : g.scu.station = .leaving ↔ h.scu.station = .leaving)
    (hr : g.lbc.record = h.lbc.record) (hn : ∀ x ∈ g.lbc.normal, x ∈ h.lbc.normal ∨ x.kind ≠ .leave)
    (hp : ∀ x ∈ g.lbc.priority, x ∈ h.lbc.priority ∨ x.kind ≠ .leave) : leaveLaw g := by
  refine leaveLaw_of_sub hl hs (fun x hx hk => .inl ((hn x hx).resolve_right (absurd hk)))
    (fun x hx hk => .inl ((hp x hx).resolve_right (absurd hk))) (fun x hx _ => .inr (.inr ?_))
  rwa [entryOnBus, hr] at hx

/-- A tracker update that leaves the lists, the record and the station state. -/
theorem leaveLaw_of_lbc {g : Hw} (hs : g.scu = h.scu) (hr : g.lbc = h.lbc) (hl : leaveLaw h) : leaveLaw g := by
  unfold leaveLaw entryOnBus at hl ⊢
  rwa [hs, hr]

theorem walkerPlaceOne_priority {x : Transaction} (hx : x ∈ (walkerPlaceOne h).lbc.priority) :
    x ∈ h.lbc.priority ∨ x.kind = .reassert := by
  unfold walkerPlaceOne at hx
  split at hx
  · split at hx
    · split at hx
      all_goals
        rw [placePriority_priority, List.mem_append, List.mem_singleton] at hx
        exact hx.imp_right fun he => by rw [he]; rfl
    · exact .inl hx
  · exact .inl hx

/-- The walker lists only REASSERTs. -/
theorem walkerAct_priority {x : Transaction} (hx : x ∈ (walkerAct h).lbc.priority) :
    x ∈ h.lbc.priority ∨ x.kind = .reassert := by
  obtain hx | hx := walkerPlaceOne_priority hx <;> [skip; exact .inr hx]
  obtain hx | hx := walkerPlaceOne_priority hx <;> [skip; exact .inr hx]
  obtain hx | hx := walkerPlaceOne_priority hx <;> [skip; exact .inr hx]
  exact walkerPlaceOne_priority hx

theorem ne_leave_of_reassert {x : Transaction} (hx : x.kind = .reassert) : x.kind ≠ .leave := by simp [hx]

theorem walkerAct_leaveLaw (hl : leaveLaw h) : leaveLaw (walkerAct h) :=
  leaveLaw_of_lists hl (by simp) (by simp) (fun x hx => .inl (by simpa using hx))
    (fun x hx => (walkerAct_priority hx).imp_right ne_leave_of_reassert)

theorem removePriority_leaveLaw (key : Transaction → Bool) (hl : leaveLaw h) : leaveLaw (removePriority key h) :=
  leaveLaw_of_lists hl Iff.rfl rfl (fun _ => .inl) (fun _ hx => .inl (List.mem_of_mem_filter hx))

theorem removeNormal_leaveLaw (key : Transaction → Bool) (hl : leaveLaw h) : leaveLaw (removeNormal key h) :=
  leaveLaw_of_lists hl Iff.rfl rfl (fun _ hx => .inl (List.mem_of_mem_filter hx)) (fun _ => .inl)

theorem placePriority_leaveLaw {x : Transaction} (hx : x.kind ≠ .leave) (hl : leaveLaw h) :
    leaveLaw (placePriority x h) := by
  refine leaveLaw_of_lists hl Iff.rfl rfl (fun _ => .inl) (fun y hy => ?_)
  rw [placePriority_priority, List.mem_append, List.mem_singleton] at hy
  exact hy.imp_right fun he => by rwa [he]

theorem placeNormal_leaveLaw {x : Transaction} (hx : x.kind ≠ .leave) (hl : leaveLaw h) :
    leaveLaw (placeNormal x h) := by
  refine leaveLaw_of_lists hl Iff.rfl rfl (fun y hy => ?_) (fun _ => .inl)
  rw [placeNormal_normal, List.mem_append, List.mem_singleton] at hy
  exact hy.imp_right fun he => by rwa [he]

theorem returnNormal_leaveLaw {x : Transaction} (hx : x.kind ≠ .leave) (hl : leaveLaw h) :
    leaveLaw (returnNormal x h) := by
  refine leaveLaw_of_lists hl Iff.rfl rfl (fun y hy => ?_) (fun _ => .inl)
  rw [returnNormal_normal, List.mem_cons] at hy
  exact hy.symm.imp_right fun he => by rwa [he]

theorem returnPriority_leaveLaw {x : Transaction} (hx : x.kind ≠ .leave) (hl : leaveLaw h) :
    leaveLaw (returnPriority x h) := by
  refine leaveLaw_of_lists hl Iff.rfl rfl (fun _ => .inl) (fun y hy => ?_)
  rw [returnPriority_priority, List.mem_cons] at hy
  exact hy.symm.imp_right fun he => by rwa [he]

theorem isSlot_ne_leave {x : Transaction} (hx : x.kind.isSlot = true) : x.kind ≠ .leave := by
  intro hk
  rw [hk] at hx
  cases hx

theorem walkerFinish_leaveLaw (s : StationId) (hl : leaveLaw h) : leaveLaw (walkerFinish s h) :=
  walkerAct_leaveLaw hl

theorem walkerDrop_leaveLaw (s : StationId) (hl : leaveLaw h) : leaveLaw (walkerDrop s h) := by
  unfold walkerDrop
  split
  · exact hl
  · split
    · exact walkerFinish_leaveLaw s (removePriority_leaveLaw _ hl)
    · exact hl

theorem walkerAdd_leaveLaw (s : StationId) (hl : leaveLaw h) : leaveLaw (walkerAdd s h) := by
  unfold walkerAdd
  split
  · exact walkerAct_leaveLaw hl
  · dsimp only
    split
    · exact walkerAct_leaveLaw (removePriority_leaveLaw (isReassertTo s) hl)
    · split <;> exact hl

theorem reassertVoid_leaveLaw {x : Transaction} (hx : x.kind = .reassert) (hl : leaveLaw h) :
    leaveLaw (reassertVoid x h) := by
  unfold reassertVoid
  split
  · dsimp only
    split <;> exact hl
  · exact returnPriority_leaveLaw (ne_leave_of_reassert hx) hl

theorem startFlush_leaveLaw (hl : leaveLaw h) : leaveLaw (startFlush h) :=
  placePriority_leaveLaw (by simp) (removePriority_leaveLaw _ (removeNormal_leaveLaw (h := { h with
    scu := { h.scu with flushing := true }, cqu := h.cqu.flush
    rqt := { h.rqt.mapSlots (abortSlot h.id) with
      holds := [], outstanding := h.rqt.outstanding - h.lbc.priority.countP isLockReassert } }) _ hl))

theorem leaveLaw_of_leaving (hs : h.scu.station = .leaving) : leaveLaw h := fun _ _ _ => hs

theorem endFlush_leaveLaw (hl : leaveLaw h) : leaveLaw (endFlush h) := by
  have hw : leaveLaw (walkerAct (flushCleared h)) := walkerAct_leaveLaw hl
  rw [endFlush_eq]
  split
  · next hs => exact leaveLaw_of_leaving (by simpa [flushCleared] using hs)
  · exact leaveLaw_of_lbc (by simp) (by simp) hw

theorem readHead_lbc (h : Hw) : (readHead h).lbc = h.lbc := by
  unfold readHead
  split
  · rfl
  · unfold afterRead
    split
    · unfold readDone
      split <;> rfl
    · rfl
    · rfl

/-- What a win does to the lists and the record: the winning entry leaves its list, and no other entry comes. -/
theorem wonBy_lbc (w : StationId) (round : Round) (c : Option Transaction) (h : Hw) :
    (∀ x ∈ (wonBy w round c h).lbc.normal, x ∈ h.lbc.normal)
      ∧ (∀ x ∈ (wonBy w round c h).lbc.priority, x ∈ h.lbc.priority)
      ∧ ∀ x, entryOnBus (wonBy w round c h) = some x → c = some x := by
  have hlists : ∀ g : Hw, (∀ x ∈ (leaveList round g).lbc.normal, x ∈ g.lbc.normal)
      ∧ ∀ x ∈ (leaveList round g).lbc.priority, x ∈ g.lbc.priority := by
    intro g
    cases round
    · exact ⟨fun _ => id, fun x hx => List.mem_of_mem_eraseP hx⟩
    · exact ⟨fun x hx => List.mem_of_mem_tail hx, fun _ => id⟩
  have htell : ∀ (x : Transaction) (g : Hw), (tellWin x g).lbc = g.lbc := by
    intro x g
    unfold tellWin
    split <;> split <;> rfl
  have hentry : ∀ x, entryOnBus (wonBy w round c h) = some x → c = some x := by
    intro x hx
    simp only [wonBy, entryOnBus, Option.bind_some, openedRecord] at hx
    split at hx
    · exact hx
    · cases hx
  refine ⟨fun x hx => ?_, fun x hx => ?_, hentry⟩
  · unfold wonBy at hx
    dsimp only at hx
    split at hx
    · rw [htell] at hx
      exact (hlists h).1 x hx
    · exact hx
  · unfold wonBy at hx
    dsimp only at hx
    split at hx
    · rw [htell] at hx
      exact (hlists h).2 x hx
    · exact hx

theorem wonBy_leaveLaw {w : StationId} {round : Round} {c : Option Transaction}
    (hc : ∀ x, c = some x → x ∈ h.lbc.priority ∨ x ∈ h.lbc.normal) (hl : leaveLaw h) :
    leaveLaw (wonBy w round c h) := by
  obtain ⟨hn, hp, he⟩ := wonBy_lbc w round c h
  refine leaveLaw_of_sub hl (by rw [wonBy_scu]) (fun x hx _ => .inl (hn x hx)) (fun x hx _ => .inl (hp x hx))
    (fun x hx _ => ?_)
  exact (hc x (he x hx)).elim (fun h => .inr (.inl h)) .inl

/-- The own entry is returned to a list, its record closed (R40). -/
theorem keepEntry_leaveLaw (round : Round) {r : TxRecord} {x : Transaction} (hr : h.lbc.record = some r)
    (hx : r.entry = some x) (hl : leaveLaw h) : leaveLaw (keepEntry round x (closeRecord h)) := by
  have hbus : entryOnBus h = some x := by simp [entryOnBus, hr, hx]
  cases round
  · refine leaveLaw_of_sub hl Iff.rfl (fun _ hy _ => .inl hy) (fun y hy _ => ?_) (fun _ hy _ => by cases hy)
    exact (List.mem_cons.mp hy).symm.imp_right fun he => by rwa [he]
  · refine leaveLaw_of_sub hl Iff.rfl (fun y hy _ => ?_) (fun _ hy _ => .inl hy) (fun _ hy _ => by cases hy)
    exact (List.mem_cons.mp hy).symm.imp_right fun he => by rwa [he]

/-- Every move of the station keeps the place of the LEAVE. -/
theorem leave_kept : SampledKept leaveLaw where
  holds _ hp := hp
  slot _ _ hp := hp
  ended _ _ _ _ hp := leaveLaw_of_lbc (by simp) (by simp) hp
  placed hx hp := placeNormal_leaveLaw (isSlot_ne_leave hx) hp
  returned hx hp := returnNormal_leaveLaw (isSlot_ne_leave hx) hp
  removed key hp := removeNormal_leaveLaw key hp
  claimed _ hp := hp
  answer _ hp := hp
  responses _ hp := hp
  notice _ hp := leaveLaw_of_lbc (by simp) (by simp) hp
  walk hp := walkerAct_leaveLaw hp
  lowered {h} hp := walkerAct_leaveLaw (h := lowerOutstanding 1 h) hp
  finished s hp := walkerFinish_leaveLaw s hp
  dropped s hp := walkerDrop_leaveLaw s hp
  added s _ hp := walkerAdd_leaveLaw s hp
  voided hx hp := reassertVoid_leaveLaw hx hp
  home _ hp := hp
  raised _ hp := leaveLaw_of_lbc (by simp) (by simp) hp
  posted hx hp := placePriority_leaveLaw (by rcases hx with hx | hx <;> simp [hx]) hp
  withdrawn key hp := removePriority_leaveLaw key hp
  record hr he hp := by
    refine leaveLaw_of_sub hp Iff.rfl (fun _ hx _ => .inl hx) (fun _ hx _ => .inl hx) (fun x hx _ => .inr (.inr ?_))
    simpa [entryOnBus, setRecord, hr, he] using hx
  sampled hs _ hp := leaveLaw_of_sub hp (by rw [hs]) (fun _ hx _ => .inl hx) (fun _ hx _ => .inl hx)
    (fun _ hx _ => .inr (.inr hx))
  control _ _ _ hs hp := leaveLaw_of_sub hp hs (fun _ hx _ => .inl hx) (fun _ hx _ => .inl hx) (fun _ hx _ => .inr (.inr hx))
  members _ hp := hp
  pins _ hp := hp
  limits _ hp := hp
  listed hx hp := placeNormal_leaveLaw (by rcases hx with hx | hx <;> simp [hx]) hp
  closed hp := leaveLaw_of_sub hp Iff.rfl (fun _ hx _ => .inl hx) (fun _ hx _ => .inl hx) (fun _ hx _ => by cases hx)
  lines _ hp := hp
  ticked hp := hp
  reset _ _ := fun _ hx => by simp [stationReset, Lbc.reset, entryOnBus] at hx
  flushed _ hp := startFlush_leaveLaw hp
  unflushed hp := endFlush_leaveLaw hp
  leaving {h} _ _ := leaveLaw_of_leaving (by rw [takeLeave_scu])
  headRead hp := leaveLaw_of_lbc (readHead_scu _) (readHead_lbc _) hp
  won hc hp := wonBy_leaveLaw hc hp
  keptBack round hr hx hp := keepEntry_leaveLaw round hr hx hp
  left _ _ _ _ := fun _ hx => by simp [ownLeave, Lbc.reset, entryOnBus] at hx

end Sys2Proof.Machine
end

section
/-! The completion queue's law (part of O59): the RESULTs and the slots (R81, R98, R156, R162), and the law as a whole. -/

namespace Sys2Proof.Machine

variable {h : Hw}

/-- The RESULTs of the queue: at most one a slot, which is DONE and not aborted. -/
def resultLaw (queue : List QueueEntry) (q : Rqt) : Prop :=
  ∀ n, queue.countP (isResultOf n) ≤ 1
    ∧ ∀ e ∈ queue, isResultOf n e = true → (q.slot n).state = .done ∧ (q.slot n).aborted = false

/-- The slots under a flush: aborted only while flushing, and then every one IDLE or aborted; IDLE in LEAVING once the
flush is over. -/
def flushLaw (c : Scu) (q : Rqt) : Prop :=
  (∀ n, (q.slot n).aborted = true → c.flushing = true)
    ∧ (c.flushing = true → ∀ n, (q.slot n).state = .idle ∨ (q.slot n).aborted = true)
    ∧ (c.station = .leaving → c.flushing = false → ∀ n, (q.slot n).state = .idle)

/-- The law of the slots and their RESULTs. -/
def slotLaw (h : Hw) : Prop := resultLaw h.cqu.queue h.rqt ∧ flushLaw h.scu h.rqt

theorem queueLaw_iff : queueLaw h ↔ slotLaw h ∧ noticeLaw h.cqu ∧ leaveLaw h := by
  have htoNat : ∀ b : Bool, (if b = true then 1 else 0) = b.toNat := by decide
  simp only [queueLaw, slotLaw, noticeLaw, leaveLaw, resultLaw, flushLaw, htoNat]
  constructor
  · rintro ⟨hn, hs, ha, hf, hi, hx⟩
    exact ⟨⟨fun n => ⟨(hn n).1, (hn n).2.1⟩, ha, hf, hi⟩, ⟨fun n => (hn n).2.2, hs⟩, hx⟩
  · rintro ⟨⟨hr, ha, hf, hi⟩, ⟨hn, hs⟩, hx⟩
    exact ⟨fun n => ⟨(hr n).1, (hr n).2, hn n⟩, hs, ha, hf, hi, hx⟩

/-! ### RESULTs -/

/-- The entry is no RESULT. -/
theorem isResultOf_notice (n m : SlotId) : isResultOf n (.notice m) = false := rfl

theorem isResultOf_station (n : SlotId) : isResultOf n .station = false := rfl

/-- An entry that is no RESULT is appended. -/
theorem resultLaw_append {queue : List QueueEntry} {q : Rqt} {e : QueueEntry} (he : ∀ n, isResultOf n e = false)
    (hl : resultLaw queue q) : resultLaw (queue ++ [e]) q := by
  intro n
  obtain ⟨hc, hd⟩ := hl n
  refine ⟨by simpa [List.countP_append, he n] using hc, fun f hf hr => ?_⟩
  rw [List.mem_append, List.mem_singleton] at hf
  rcases hf with hf | rfl
  · exact hd f hf hr
  · rw [he n] at hr
    cases hr

/-- A queue that keeps no RESULT of a slot that has gone on. -/
theorem resultLaw_of_slots {queue new : List QueueEntry} {q t : Rqt} (hsub : new.Sublist queue)
    (hs : ∀ n, (∃ e ∈ new, isResultOf n e = true) → (q.slot n).state = .done → (q.slot n).aborted = false →
      (t.slot n).state = .done ∧ (t.slot n).aborted = false)
    (hl : resultLaw queue q) : resultLaw new t := by
  intro n
  obtain ⟨hc, hd⟩ := hl n
  refine ⟨(List.Sublist.countP_le hsub).trans hc, fun e he hr => ?_⟩
  obtain ⟨hdone, hab⟩ := hd e (hsub.subset he) hr
  exact hs n ⟨e, he, hr⟩ hdone hab

/-- A slot that is not DONE has no RESULT in the queue. -/
theorem no_result {queue : List QueueEntry} {q : Rqt} {n : SlotId} (hl : resultLaw queue q)
    (hs : (q.slot n).state ≠ .done) : ∀ e ∈ queue, isResultOf n e = false := by
  intro e he
  by_contra hr
  exact hs ((hl n).2 e he (Bool.not_eq_false _ ▸ hr)).1

/-- The RESULT of a slot that had none is appended, and the slot is DONE. -/
theorem resultLaw_end {queue : List QueueEntry} {q : Rqt} {n : SlotId} {r : SlotRecord} {e : QueueEntry}
    (hl : resultLaw queue q) (hs : (q.slot n).state ≠ .done) (he : ∀ m, isResultOf m e = true → m = n)
    (hr : r.state = .done ∧ r.aborted = false) (hset : ∀ m, (q.setSlot n r).slot m = if m = n then r else q.slot m) :
    resultLaw (queue ++ [e]) (q.setSlot n r) := by
  intro m
  rw [hset]
  have hno := no_result hl hs
  by_cases hm : m = n
  · subst hm
    have hzero : queue.countP (isResultOf m) = 0 := List.countP_eq_zero.mpr fun f hf => by simp [hno f hf]
    refine ⟨?_, fun _ _ _ => by simpa using hr⟩
    have hone : [e].countP (isResultOf m) ≤ 1 := List.countP_le_length
    rw [List.countP_append, hzero]
    omega
  · obtain ⟨hc, hd⟩ := hl m
    have hne : isResultOf m e = false := Bool.eq_false_iff.mpr fun hc => hm (he m hc)
    refine ⟨by simpa [List.countP_append, hne] using hc, fun f hf hr' => ?_⟩
    rw [if_neg hm]
    rw [List.mem_append, List.mem_singleton] at hf
    rcases hf with hf | rfl
    · exact hd f hf hr'
    · rw [hne] at hr'
      cases hr'

/-- A slot of the tracker after a slot is replaced. -/
theorem slot_setSlot (q : Rqt) (n m : SlotId) (r : SlotRecord) :
    (q.setSlot n r).slot m = if m = n then r else q.slot m := by
  simp only [Rqt.setSlot, Rqt.slot, get_eq_getElem, Vector.getElem_set, Fin.ext_iff, eq_comm]

/-! ### Slots -/

/-- A slot whose record alters goes on under the law of the flush, when it was out of IDLE or the station takes slot
commands. -/
theorem flushLaw_setSlot {n : SlotId} {r : SlotRecord} (hl : flushLaw h.scu h.rqt)
    (ha : r.aborted = (h.rqt.slot n).aborted)
    (hs : r.state = (h.rqt.slot n).state ∨ (h.rqt.slot n).state ≠ .idle ∨ stationReady h = true) :
    flushLaw h.scu (h.rqt.setSlot n r) := by
  obtain ⟨hab, hfl, hle⟩ := hl
  refine ⟨fun m hm => ?_, fun hf m => ?_, fun hst hf m => ?_⟩
  · rw [slot_setSlot] at hm
    split at hm
    · exact hab n (ha ▸ hm)
    · exact hab m hm
  · rw [slot_setSlot]
    split
    · rw [ha]
      rcases hs with hs | hs | hs
      · rw [hs]
        exact hfl hf n
      · exact .inr ((hfl hf n).resolve_left hs)
      · simp [stationReady, hf] at hs
    · exact hfl hf m
  · rw [slot_setSlot]
    split
    · rcases hs with hs | hs | hs
      · rw [hs]
        exact hle hst hf n
      · exact absurd (hle hst hf n) hs
      · simp [stationReady, hst] at hs
    · exact hle hst hf m

theorem slotLaw_setSlot {n : SlotId} {r : SlotRecord} (hl : slotLaw h) (ha : r.aborted = (h.rqt.slot n).aborted)
    (hs : r.state = (h.rqt.slot n).state
      ∨ ((h.rqt.slot n).state ≠ .done ∧ ((h.rqt.slot n).state ≠ .idle ∨ stationReady h = true))) :
    slotLaw (h.setSlot n r) := by
  obtain ⟨hres, hfl⟩ := hl
  refine ⟨resultLaw_of_slots (q := h.rqt) (List.Sublist.refl h.cqu.queue) (fun m _ hd hab => ?_) hres,
    flushLaw_setSlot hfl ha (hs.imp_right fun hc => hc.2)⟩
  rw [Hw.setSlot, slot_setSlot]
  split
  · next hmn =>
    subst hmn
    exact ⟨(hs.resolve_right fun hc => hc.1 hd).trans hd, ha.trans hab⟩
  · exact ⟨hd, hab⟩

/-- An active slot is not aborted. -/
theorem not_aborted_of_active {n : SlotId} (hl : flushLaw h.scu h.rqt) (a : Active n h) :
    (h.rqt.slot n).aborted = false := by
  obtain ⟨-, ha | hf, -⟩ := a
  · exact ha
  · refine Bool.eq_false_iff.mpr fun hab => ?_
    rw [hl.1 n hab] at hf
    cases hf

theorem endOperation_slotLaw {n : SlotId} (c : ResultCode) (d : ResultDetail) (m : Option Mode) (a : Active n h)
    (hl : slotLaw h) : slotLaw (endOperation n c d m h) := by
  obtain ⟨hres, hfl⟩ := hl
  have hab := not_aborted_of_active hfl a
  unfold endOperation
  split
  · exact ⟨hres, hfl⟩
  · refine ⟨?_, ?_⟩
    · simp only [appendEntry_queue, appendEntry_rqt]
      refine resultLaw_end hres a.1 (fun k hk => ?_) ⟨rfl, hab⟩ (slot_setSlot _ _ · _)
      simpa [isResultOf, eq_comm] using hk
    · simp only [appendEntry_scu, appendEntry_rqt]
      exact flushLaw_setSlot (h := h) hfl (by rfl) (.inr a.2.2)

/-- What the law of the slots looks at. -/
theorem slotLaw_of_eq {g : Hw} (hq : g.cqu.queue = h.cqu.queue) (hs : g.scu = h.scu) (hr : g.rqt.slots = h.rqt.slots)
    (hl : slotLaw h) : slotLaw g := by
  unfold slotLaw resultLaw flushLaw Rqt.slot at hl ⊢
  rwa [hq, hs, hr]

/-- An append of an entry that is no RESULT. -/
theorem slotLaw_append {g : Hw} {e : QueueEntry} (he : ∀ n, isResultOf n e = false)
    (hq : g.cqu.queue = h.cqu.queue ++ [e]) (hs : g.scu = h.scu) (hr : g.rqt = h.rqt) (hl : slotLaw h) : slotLaw g := by
  unfold slotLaw
  rw [hq, hs, hr]
  exact ⟨resultLaw_append he hl.1, hl.2⟩

theorem requestNotice_slotLaw (n : SlotId) (hl : slotLaw h) : slotLaw (requestNotice n h) := by
  unfold requestNotice
  split
  · exact hl
  · exact slotLaw_append (isResultOf_notice · n) (by simp) (by simp) (by simp) hl

theorem raiseEvent_slotLaw (ev : Event) (hl : slotLaw h) : slotLaw (raiseEvent ev h) := by
  unfold raiseEvent
  dsimp only
  split
  · exact slotLaw_append isResultOf_station (by simp) (by simp) (by simp) hl
  · exact hl

theorem walkerAct_slotLaw (hl : slotLaw h) : slotLaw (walkerAct h) :=
  slotLaw_of_eq (by simp) (by simp) (by simp) hl

theorem walkerDrop_slotLaw (s : StationId) (hl : slotLaw h) : slotLaw (walkerDrop s h) := by
  unfold walkerDrop
  split
  · exact hl
  · split
    · exact walkerAct_slotLaw hl
    · exact hl

theorem walkerAdd_slotLaw (s : StationId) (hl : slotLaw h) : slotLaw (walkerAdd s h) := by
  unfold walkerAdd
  split
  · exact walkerAct_slotLaw hl
  · dsimp only
    split
    · exact walkerAct_slotLaw hl
    · split <;> exact hl

theorem reassertVoid_slotLaw (x : Transaction) (hl : slotLaw h) : slotLaw (reassertVoid x h) := by
  unfold reassertVoid
  split
  · dsimp only
    split <;> exact hl
  · exact hl

/-! ### Flushes, resets and the read of the head -/

/-- No RESULT stands where only the STATION entry may. -/
theorem resultLaw_of_none {queue : List QueueEntry} {q : Rqt} (hn : ∀ n, ∀ e ∈ queue, isResultOf n e = false) :
    resultLaw queue q := fun n =>
  ⟨(List.countP_eq_zero.mpr fun e he => by simp [hn n e he]).trans_le (Nat.zero_le 1),
    fun e he hr => by simp [hn n e he] at hr⟩

theorem startFlush_slotLaw : slotLaw (startFlush h) := by
  refine ⟨resultLaw_of_none fun n e he => ?_, fun _ _ => rfl, fun _ n => ?_, fun _ hf => by cases hf⟩
  · have : e = .station := by simpa using List.of_mem_filter he
    rw [this]
    rfl
  · change ((h.rqt.mapSlots (abortSlot h.id)).slot n).state = .idle
      ∨ ((h.rqt.mapSlots (abortSlot h.id)).slot n).aborted = true
    rw [slot_mapSlots]
    unfold abortSlot
    split
    · next hi => exact .inl hi
    · exact .inr rfl

theorem flushCleared_slotLaw (hl : slotLaw h) : slotLaw (flushCleared h) := by
  obtain ⟨hres, hab, hfl, hle⟩ := hl
  have hslot : ∀ n, (flushCleared h).rqt.slot n = endAbort (h.rqt.slot n) := slot_mapSlots _ _
  refine ⟨resultLaw_of_slots (q := h.rqt) (List.Sublist.refl _) (fun n _ hd ha => ?_) hres, fun n hn => ?_,
    fun hf => (by cases hf), fun hst _ n => ?_⟩
  · rw [hslot, endAbort, if_neg (by simp [ha])]
    exact ⟨hd, ha⟩
  · rw [hslot, endAbort] at hn
    split at hn
    · cases hn
    · next hc => exact absurd hn hc
  · rw [hslot, endAbort]
    split
    · rfl
    · next hc =>
      cases hf : h.scu.flushing
      · exact hle hst hf n
      · exact (hfl hf n).resolve_right hc

theorem endFlush_slotLaw (hl : slotLaw h) : slotLaw (endFlush h) := by
  have hw : slotLaw (raiseEvent .flushDone (walkerAct (flushCleared h))) :=
    raiseEvent_slotLaw _ (walkerAct_slotLaw (flushCleared_slotLaw hl))
  rw [endFlush_eq]
  split <;> exact hw

/-- Slots that are all IDLE and not aborted, and a queue without RESULTs. -/
theorem slotLaw_of_idle (hi : ∀ n, (h.rqt.slot n).state = .idle ∧ (h.rqt.slot n).aborted = false)
    (hn : ∀ n, ∀ e ∈ h.cqu.queue, isResultOf n e = false) : slotLaw h :=
  ⟨resultLaw_of_none hn, fun n hab => by simp [(hi n).2] at hab, fun _ n => .inl (hi n).1, fun _ _ n => (hi n).1⟩

theorem stationReset_slotLaw (c : CommandStatus) : slotLaw (stationReset c h) := by
  refine slotLaw_of_idle (fun n => ?_) (fun n e he => by cases he)
  rw [show (stationReset c h).rqt = .reset from rfl, slot_reset]
  exact ⟨rfl, rfl⟩

theorem ownLeave_slot (h : Hw) (n : SlotId) : (ownLeave h).rqt.slot n = leaveSlot (h.rqt.slot n) := by
  simp [ownLeave, Rqt.slot, get_eq_getElem]

/-- The own LEAVE completes in LEAVING, where no slot has a RESULT in the queue. -/
theorem ownLeave_slotLaw (hst : h.scu.station = .leaving) (hl : slotLaw h) : slotLaw (ownLeave (closeRecord h)) := by
  obtain ⟨hres, -, hfl, hle⟩ := hl
  have hno : ∀ n, ∀ e ∈ h.cqu.queue, isResultOf n e = false := by
    intro n e he
    by_contra hr
    obtain ⟨hd, hab⟩ := (hres n).2 e he (Bool.not_eq_false _ ▸ hr)
    cases hf : h.scu.flushing
    · rw [hle hst hf n] at hd
      cases hd
    · rcases hfl hf n with hi | ha
      · rw [hi] at hd
        cases hd
      · rw [hab] at ha
        cases ha
  refine slotLaw_of_idle (fun n => by rw [ownLeave_slot]; exact ⟨rfl, rfl⟩) (fun n e he => ?_)
  rw [ownLeave, raiseEvent_queue] at he
  split at he
  · rw [List.mem_append, List.mem_singleton] at he
    rcases he with he | rfl
    · exact hno n e he
    · rfl
  · exact hno n e he

/-- A RESULT is read: its slot goes from DONE to IDLE, and had no other (R105). -/
theorem readDone_slotLaw {n : SlotId} {e : QueueEntry} {rest : List QueueEntry} (hq : h.cqu.queue = e :: rest)
    (he : isResultOf n e = true) (hl : slotLaw h) :
    slotLaw (readDone n { h with cqu := { h.cqu with queue := rest } }) := by
  obtain ⟨hres, hfl⟩ := hl
  have hsub : rest.Sublist h.cqu.queue := hq ▸ List.sublist_cons_self e rest
  obtain ⟨hd, hab⟩ := (hres n).2 e (by rw [hq]; exact List.mem_cons_self) he
  have hno : ∀ f ∈ rest, isResultOf n f = false := by
    have hc := (hres n).1
    rw [hq, List.countP_cons_of_pos he] at hc
    have hz : rest.countP (isResultOf n) = 0 := by omega
    simpa [List.countP_eq_zero] using hz
  rw [readDone, if_pos hd]
  refine ⟨resultLaw_of_slots hsub (fun k hk hdk hak => ?_) hres,
    flushLaw_setSlot hfl hab.symm (.inr (.inl (by simp [hd])))⟩
  rw [Hw.setSlot, slot_setSlot]
  split
  · next hkn =>
    obtain ⟨f, hf, hr⟩ := hk
    rw [hkn, hno f hf] at hr
    cases hr
  · exact ⟨hdk, hak⟩

theorem readHead_slotLaw (hl : slotLaw h) : slotLaw (readHead h) := by
  unfold readHead
  split
  · exact hl
  · next e rest hq =>
    have hsub : rest.Sublist h.cqu.queue := hq ▸ List.sublist_cons_self e rest
    have hrest : slotLaw { h with cqu := { h.cqu with queue := rest } } :=
      ⟨resultLaw_of_slots hsub (fun _ _ hd ha => ⟨hd, ha⟩) hl.1, hl.2⟩
    unfold afterRead
    cases e with
    | result n op l m c d => exact slotLaw_of_eq rfl rfl rfl (readDone_slotLaw (n := n) hq (by simp [isResultOf]) hl)
    | notice n => exact hrest
    | station => exact hrest

theorem wonBy_slotLaw (w : StationId) (round : Round) (c : Option Transaction) (hl : slotLaw h) :
    slotLaw (wonBy w round c h) := by
  obtain hr | ⟨n, hq, hr⟩ := wonBy_rqt w round c h
  · exact slotLaw_of_eq (by rw [wonBy_cqu]) (wonBy_scu w round c h) (by rw [hr]) hl
  · have hset : slotLaw (h.setSlot n { h.rqt.slot n with state := .onBus }) :=
      slotLaw_setSlot hl rfl (.inr ⟨by simp [hq], .inl (by simp [hq])⟩)
    refine slotLaw_of_eq (h := h.setSlot n { h.rqt.slot n with state := .onBus }) ?_ (wonBy_scu w round c h) ?_ hset
    · rw [wonBy_cqu, setSlot_cqu]
    · rw [hr, Hw.setSlot]

theorem control_slotLaw {c : Scu} (hf : c.flushing = h.scu.flushing)
    (hs : c.station = .leaving ↔ h.scu.station = .leaving) (hl : slotLaw h) : slotLaw { h with scu := c } := by
  obtain ⟨hres, hab, hfl, hle⟩ := hl
  exact ⟨hres, fun n hn => hf ▸ hab n hn, fun hc => hfl (hf ▸ hc), fun hst hc => hle (hs.mp hst) (hf ▸ hc)⟩

theorem tick_slotLaw (hl : slotLaw h) : slotLaw { h with rqt := h.rqt.mapSlots SlotRecord.tick } := by
  have hslot : ∀ n, ((h.rqt.mapSlots SlotRecord.tick).slot n).state = (h.rqt.slot n).state
      ∧ ((h.rqt.mapSlots SlotRecord.tick).slot n).aborted = (h.rqt.slot n).aborted := fun n => by
    rw [slot_mapSlots]
    exact ⟨rfl, rfl⟩
  unfold slotLaw resultLaw flushLaw at hl ⊢
  simpa only [hslot] using hl

/-- Every move of the station keeps the law of the slots and their RESULTs, with the place of the LEAVE. -/
theorem slot_kept : SampledKept fun h => slotLaw h ∧ leaveLaw h where
  holds _ hp := hp
  slot ha hs hp := ⟨slotLaw_setSlot hp.1 ha (hs.imp_right fun hc => ⟨hc.1.1, hc.1.2.2⟩), hp.2⟩
  ended c d m a hp := ⟨endOperation_slotLaw c d m a hp.1, leave_kept.ended c d m a hp.2⟩
  placed hx hp := ⟨hp.1, leave_kept.placed hx hp.2⟩
  returned hx hp := ⟨hp.1, leave_kept.returned hx hp.2⟩
  removed key hp := ⟨hp.1, leave_kept.removed key hp.2⟩
  claimed _ hp := hp
  answer _ hp := hp
  responses _ hp := hp
  notice n hp := ⟨requestNotice_slotLaw n hp.1, leave_kept.notice n hp.2⟩
  walk hp := ⟨walkerAct_slotLaw hp.1, leave_kept.walk hp.2⟩
  lowered {h} hp := ⟨walkerAct_slotLaw (h := lowerOutstanding 1 h) hp.1, leave_kept.lowered hp.2⟩
  finished s hp := ⟨walkerAct_slotLaw hp.1, leave_kept.finished s hp.2⟩
  dropped s hp := ⟨walkerDrop_slotLaw s hp.1, leave_kept.dropped s hp.2⟩
  added s hs hp := ⟨walkerAdd_slotLaw s hp.1, leave_kept.added s hs hp.2⟩
  voided hx hp := ⟨reassertVoid_slotLaw _ hp.1, leave_kept.voided hx hp.2⟩
  home _ hp := hp
  raised ev hp := ⟨raiseEvent_slotLaw ev hp.1, leave_kept.raised ev hp.2⟩
  posted hx hp := ⟨hp.1, leave_kept.posted hx hp.2⟩
  withdrawn key hp := ⟨hp.1, leave_kept.withdrawn key hp.2⟩
  record hr he hp := ⟨hp.1, leave_kept.record hr he hp.2⟩
  control hi hf hs hle hp := ⟨control_slotLaw hf hle hp.1, leave_kept.control hi hf hs hle hp.2⟩
  sampled hs hf hp := ⟨control_slotLaw hf (by rw [hs]) hp.1, leave_kept.sampled hs hf hp.2⟩
  members _ hp := hp
  pins _ hp := hp
  limits _ hp := hp
  listed hx hp := ⟨hp.1, leave_kept.listed hx hp.2⟩
  closed hp := ⟨hp.1, leave_kept.closed hp.2⟩
  lines _ hp := hp
  ticked hp := ⟨tick_slotLaw hp.1, leave_kept.ticked hp.2⟩
  reset c hp := ⟨stationReset_slotLaw c, leave_kept.reset c hp.2⟩
  flushed hm hp := ⟨startFlush_slotLaw, leave_kept.flushed hm hp.2⟩
  unflushed hp := ⟨endFlush_slotLaw hp.1, leave_kept.unflushed hp.2⟩
  leaving {h} hs hp := by
    refine ⟨?_, leave_kept.leaving hs hp.2⟩
    obtain ⟨hf, ht⟩ | ⟨-, ht⟩ := takeLeave_cases h <;> rw [ht]
    · obtain ⟨hres, hab, hfl, -⟩ := hp.1
      exact ⟨hres, hab, hfl, fun _ hc => by simp [goneLeaving, hf] at hc⟩
    · exact startFlush_slotLaw
  headRead hp := ⟨readHead_slotLaw hp.1, leave_kept.headRead hp.2⟩
  won hc hp := ⟨wonBy_slotLaw _ _ _ hp.1, leave_kept.won hc hp.2⟩
  keptBack round hr hx hp := ⟨by cases round <;> exact hp.1, leave_kept.keptBack round hr hx hp.2⟩
  left {h r x} hr hx hk hp :=
    ⟨ownLeave_slotLaw (hp.2 x (.inr (.inr (by simp [entryOnBus, hr, hx]))) hk) hp.1, leave_kept.left hr hx hk hp.2⟩

/-- Every step keeps the completion queue's law. -/
theorem queueLaw_step {s t : State} (hl : queueLaw s.hw) (ht : step s = .next t) : queueLaw t.hw := by
  rw [queueLaw_iff] at hl ⊢
  obtain ⟨hs, hn, hx⟩ := hl
  obtain ⟨hs', hx'⟩ := slot_kept.step ⟨hs, hx⟩ ht
  exact ⟨hs', notice_kept.step hn ht, hx'⟩

end Sys2Proof.Machine
end

section
/-! What the home can do to itself, for a property of the home: the tracker reaches the home only by its claims
(`TrackerFrame`), GRANTs are posted (`PostKept`), evaluations only make offers (`EvalKept`), the taking of a claim adds a
few changes of the tables (`TableKept`), and the end of a purge frees the home (`PurgeKept`). `TakeKept` is for a property
that a claim taken keeps as a whole. -/

namespace Sys2Proof.Machine

/-! ### What does not concern the home -/

/-- From `h` to `t` nothing happens that concerns the home: neither the SCU nor the home changes, nor the open record,
and no GRANT comes to the normal list. -/
def Quiet (h t : Hw) : Prop :=
  t.scu = h.scu ∧ t.htu = h.htu ∧ t.lbc.record = h.lbc.record
    ∧ ∀ x ∈ t.lbc.normal, x ∈ h.lbc.normal ∨ x.kind ≠ .grant

theorem Quiet.refl (h : Hw) : Quiet h h := ⟨rfl, rfl, rfl, fun _ => .inl⟩

theorem Quiet.trans {h t u : Hw} (h1 : Quiet h t) (h2 : Quiet t u) : Quiet h u := by
  obtain ⟨hs, hh, hr, hn⟩ := h1
  obtain ⟨hs', hh', hr', hn'⟩ := h2
  exact ⟨hs'.trans hs, hh'.trans hh, hr'.trans hr, fun x hx => (hn' x hx).elim (hn x) .inr⟩

/-- The normal list kept, nothing that concerns the home happens. -/
theorem Quiet.of_eq {h t : Hw} (hs : t.scu = h.scu) (hh : t.htu = h.htu) (hr : t.lbc.record = h.lbc.record)
    (hn : t.lbc.normal = h.lbc.normal) : Quiet h t := ⟨hs, hh, hr, fun _ hx => .inl (hn ▸ hx)⟩

/-- A flush starting, a reset and a flag aside, the rest of the SCU may alter too where the home state stays. -/
theorem Quiet.of_lbc {h t : Hw} (hs : t.scu = h.scu) (hh : t.htu = h.htu) (hl : t.lbc = h.lbc) : Quiet h t :=
  Quiet.of_eq hs hh (by rw [hl]) (by rw [hl])

/-- From `h` to `t` self-homed requests and answers to internal offers have reached the home, and nothing else that
concerns it has happened. -/
def TrackerFrame (h t : Hw) : Prop :=
  ∃ cs : List Claim, (∀ c ∈ cs, c.isSelfRequest = true ∨ c.isInternalOutcome = true)
    ∧ Quiet { h with htu := cs.foldl (fun u c => u.receive c) h.htu } t

theorem TrackerFrame.refl (h : Hw) : TrackerFrame h h := ⟨[], by simp, Quiet.refl h⟩

theorem TrackerFrame.quiet {h t u : Hw} (hf : TrackerFrame h t) (hq : Quiet t u) : TrackerFrame h u := by
  obtain ⟨cs, hc, hq'⟩ := hf
  exact ⟨cs, hc, hq'.trans hq⟩

theorem TrackerFrame.of_quiet {h t : Hw} (hq : Quiet h t) : TrackerFrame h t := (TrackerFrame.refl h).quiet hq

theorem TrackerFrame.claim {h t : Hw} {c : Claim} (hc : c.isSelfRequest = true ∨ c.isInternalOutcome = true)
    (hf : TrackerFrame h t) : TrackerFrame h (addClaim c t) := by
  obtain ⟨cs, hcs, hs, hh, hr, hn⟩ := hf
  refine ⟨cs ++ [c], fun d hd => ?_, hs, ?_, hr, hn⟩
  · rw [List.mem_append, List.mem_singleton] at hd
    exact hd.elim (hcs d) fun he => he ▸ hc
  · rw [addClaim_htu, hh, List.foldl_append]
    rfl

/-- The tracker does to the home what its frame says. -/
theorem tracker_frame (h : Hw) : TrackerKept (TrackerFrame h) where
  holds _ hp := hp.quiet (Quiet.of_lbc rfl rfl rfl)
  slot _ _ hp := hp.quiet (Quiet.of_lbc rfl rfl rfl)
  ended _ _ _ _ hp := hp.quiet (Quiet.of_lbc (by simp) (by simp) (by simp))
  placed {g x} hx hp := hp.quiet ⟨rfl, rfl, rfl, fun y hy => by
    rw [placeNormal_normal, List.mem_append, List.mem_singleton] at hy
    refine hy.imp_right fun he hk => ?_
    rw [← he, hk] at hx
    cases hx⟩
  returned {g x} hx hp := hp.quiet ⟨rfl, rfl, rfl, fun y hy => by
    rw [returnNormal_normal, List.mem_cons] at hy
    refine hy.symm.imp_right fun he hk => ?_
    rw [← he, hk] at hx
    cases hx⟩
  removed _ hp := hp.quiet ⟨rfl, rfl, rfl, fun _ hy => .inl (List.mem_of_mem_filter hy)⟩
  claimed hc hp := hp.claim hc
  answer _ hp := hp.quiet (Quiet.of_lbc rfl rfl rfl)
  responses _ hp := hp.quiet (Quiet.of_lbc rfl rfl rfl)
  notice _ hp := hp.quiet (Quiet.of_lbc (by simp) (by simp) (by simp))
  walk hp := hp.quiet (Quiet.of_eq (by simp) (by simp) (by simp) (by simp))
  lowered hp := hp.quiet (Quiet.of_eq (by simp) (by simp) (by simp) (by simp))
  finished _ hp := hp.quiet (Quiet.of_eq (by simp [walkerFinish]) (by simp [walkerFinish]) (by simp [walkerFinish])
    (by simp [walkerFinish]))
  dropped s hp := by
    unfold walkerDrop
    split
    · exact hp
    · split
      · exact hp.quiet (Quiet.of_eq (by simp [walkerFinish, removePriority]) (by simp [walkerFinish, removePriority])
          (by simp [walkerFinish, removePriority]) (by simp [walkerFinish, removePriority]))
      · exact hp.quiet (Quiet.of_lbc rfl rfl rfl)
  added s _ hp := by
    unfold walkerAdd
    split
    · exact hp.quiet (Quiet.of_eq (by simp) (by simp) (by simp) (by simp))
    · dsimp only
      split
      · exact hp.quiet (Quiet.of_eq (by simp [removePriority]) (by simp [removePriority]) (by simp [removePriority])
          (by simp [removePriority]))
      · split
        · exact hp
        · exact hp.quiet (Quiet.of_lbc rfl rfl rfl)
  voided _ hp := by
    unfold reassertVoid
    split
    · dsimp only
      split <;> exact hp.quiet (Quiet.of_lbc rfl rfl rfl)
    · exact hp.quiet (Quiet.of_eq rfl rfl rfl rfl)

/-! ### Offers posted and withdrawn -/

/-- The home is engaged by nothing on the lockbus, so no decision stands. -/
def offBus (h : Hw) : Prop := h.htu.engaged = .free ∨ h.htu.purge.isSome = true ∨ h.lbc.record = none

/-- A property of the home that the posting and the withdrawing of offers keep, and whatever is none of its concern. -/
structure PostKept (P : Hw → Prop) : Prop where
  quiet {h t : Hw} : Quiet h t → P h → P t
  claimed {h : Hw} {c : Claim} : c ≠ .lockTransaction → c ≠ .rebuildExpiry → P h → P (addClaim c h)
  /-- A GRANT more is posted, and one less; an offer enters or leaves the backlog. -/
  postedUp {h : Hw} : h.htu.posted < 8 → P h → P (h.setHtu { h.htu with posted := h.htu.posted + 1 })
  postedDown {h : Hw} : P h → P (h.setHtu { h.htu with posted := h.htu.posted - 1 })
  backlog {h : Hw} (l : List Waiter) : P h → P (h.setHtu { h.htu with backlog := l })
  /-- The offers of entries are posted. -/
  flagged {h : Hw} {f : Holder → Holder} : offBus h → (∀ e, f e = e ∨ f e = { e with posted := some true }) → P h →
    P (h.setHtu { h.htu with holders := h.htu.holders.map f })

namespace PostKept

variable {P : Hw → Prop} (k : PostKept P) {h : Hw}
include k

theorem still {t : Hw} (hp : P h) (hq : Quiet h t) : P t := k.quiet hq hp

theorem received {cs : List Claim} (hc : ∀ c ∈ cs, c.isSelfRequest = true ∨ c.isInternalOutcome = true) (hp : P h) :
    P { h with htu := cs.foldl (fun u c => u.receive c) h.htu } := by
  induction cs generalizing h with
  | nil => exact hp
  | cons c cs ih =>
    have hcc := hc c List.mem_cons_self
    have hone : P (addClaim c h) :=
      k.claimed (fun he => by simp [he, Claim.isSelfRequest, Claim.isInternalOutcome] at hcc)
        (fun he => by simp [he, Claim.isSelfRequest, Claim.isInternalOutcome] at hcc) hp
    exact ih (h := addClaim c h) (fun d hd => hc d (List.mem_cons_of_mem c hd)) hone

/-- What the tracker does keeps the property. -/
theorem tracker {t : Hw} (hf : TrackerFrame h t) (hp : P h) : P t := by
  obtain ⟨cs, hc, hq⟩ := hf
  exact k.quiet hq (k.received hc hp)

theorem placePriority (x : Transaction) (hp : P h) : P (placePriority x h) := k.still hp (Quiet.of_eq rfl rfl rfl rfl)

theorem raiseEvent (ev : Event) (hp : P h) : P (raiseEvent ev h) :=
  k.quiet (Quiet.of_lbc (by simp) (by simp) (by simp)) hp

theorem refillOne (ho : offBus h) (hp : P h) : P (refillOne h) := by
  unfold Machine.refillOne
  split
  · exact hp
  · next w rest _ =>
    split
    · next hlt =>
      have hflag := k.flagged (f := fun e => if isOfferTo w.index w.station w.slot e then { e with posted := some true }
        else e) ho (fun e => by split <;> simp) hp
      have hback := k.backlog rest hflag
      exact k.placePriority _ (k.postedUp (by exact hlt) hback)
    · exact hp

omit k in
theorem refillOne_offBus : offBus (Machine.refillOne h) ↔ offBus h := by simp [offBus]

omit k in
theorem departGrant_offBus : offBus (Machine.departGrant h) ↔ offBus h := by simp [offBus]

omit k in
theorem withdrawOffer_offBus (e : Holder) : offBus (Machine.withdrawOffer e h) ↔ offBus h := by simp [offBus]

theorem refill (j : Nat) (ho : offBus h) (hp : P h) : P (refill j h) := by
  induction j generalizing h with
  | zero => exact hp
  | succ j ih => exact ih (refillOne_offBus.mpr ho) (k.refillOne ho hp)

theorem departGrant (ho : offBus h) (hp : P h) : P (departGrant h) := by
  unfold Machine.departGrant
  dsimp only
  split
  · exact k.postedDown hp
  · exact k.refillOne ho (k.postedDown hp)

theorem removePriority (key : Transaction → Bool) (hp : P h) : P (removePriority key h) :=
  k.still hp (Quiet.of_eq rfl rfl rfl rfl)

theorem withdrawOffer (e : Holder) (ho : offBus h) (hp : P h) : P (withdrawOffer e h) := by
  unfold Machine.withdrawOffer
  dsimp only
  split
  · split
    · exact k.departGrant ho (k.removePriority _ hp)
    · exact hp
  · exact k.backlog _ hp
  · exact hp

theorem withdrawOffers (es : List Holder) (ho : offBus h) (hp : P h) : P (withdrawOffers es h) := by
  unfold Machine.withdrawOffers
  refine (List.foldlRecOn (motive := fun g => offBus g ∧ P g) _ _ ⟨ho, hp⟩ fun g hg e _ => ?_).2
  exact ⟨(withdrawOffer_offBus e).mpr hg.1, k.withdrawOffer e hg.1 hg.2⟩

omit k in
theorem withdrawOffers_engaged (es : List Holder) (g : Hw) :
    (Machine.withdrawOffers es g).htu.engaged = g.htu.engaged := by
  unfold Machine.withdrawOffers
  refine List.foldlRecOn (motive := fun x : Hw => x.htu.engaged = g.htu.engaged) _ _ rfl fun x hx e _ => ?_
  rw [withdrawOffer_htu_engaged, hx]

end PostKept

/-! ### Evaluations -/

/-- A property of the home that an evaluation keeps. -/
structure EvalKept (P : Hw → Prop) : Prop extends PostKept P where
  /-- The head of a lock's queue becomes OFFERED, at a free home (R11). -/
  moved {h : Hw} {i : LockIndex} {w : Waiter} (p : Option Bool) : h.htu.engaged = .free → headWaiter i h.htu = some w →
    compatible w.mode (holdersOf i h.htu) = true → holderFree h.htu = true → P h →
    P (h.setHtu (h.htu.moveToOffered w p))
  /-- A lock is or is no longer stalled. -/
  stalled {h : Hw} (l : List LockIndex) : h.htu.engaged = .free → h.home = .serving → P h →
    P (h.setHtu { h.htu with stalled := l })

/-- What an evaluation starts from and ends with: the property, at a free home in SERVING (R9). -/
def Evaluating (P : Hw → Prop) (h : Hw) : Prop := P h ∧ h.htu.engaged = .free ∧ h.home = .serving

namespace EvalKept

variable {P : Hw → Prop} (k : EvalKept P) {h : Hw}
include k

theorem offer {i : LockIndex} {w : Waiter} (hf : h.htu.engaged = .free) (hw : headWaiter i h.htu = some w)
    (hc : compatible w.mode (holdersOf i h.htu) = true) (hroom : holderFree h.htu = true) (hp : P h) :
    P (offer w h) := by
  unfold Machine.offer
  split
  · exact k.tracker ((tracker_frame _).internalOffer _ _ (TrackerFrame.refl _)) (k.moved none hf hw hc hroom hp)
  · split
    · next hlt =>
      have hm := k.moved (some true) hf hw hc hroom hp
      exact k.placePriority _ (k.postedUp (by exact hlt) hm)
    · have hm := k.moved (some false) hf hw hc hroom hp
      exact k.backlog _ hm

omit k in
theorem receive_all_engaged (cs : List Claim) (u : Htu) :
    (cs.foldl (fun u c => u.receive c) u).engaged = u.engaged := by
  induction cs generalizing u with
  | nil => rfl
  | cons c cs ih => exact (ih _).trans (receive_engaged c u)

omit k in
theorem engaged_of_frame {t : Hw} (hf : TrackerFrame h t) : t.htu.engaged = h.htu.engaged := by
  obtain ⟨cs, -, -, hh, -⟩ := hf
  rw [hh]
  exact receive_all_engaged cs h.htu

omit k in
theorem home_of_frame {t : Hw} (hf : TrackerFrame h t) : t.home = h.home := by
  obtain ⟨cs, -, hs, -⟩ := hf
  exact congrArg (fun c => c.station.home) hs

omit k in
/-- An offer engages nothing and leaves the home state. -/
theorem offer_at_home (w : Waiter) :
    (Machine.offer w h).htu.engaged = h.htu.engaged ∧ (Machine.offer w h).home = h.home := by
  unfold Machine.offer
  split
  · have hf := (tracker_frame (h.setHtu (h.htu.moveToOffered w none))).internalOffer (n := w.slot)
      (lockAt h.id w.index) w.mode (TrackerFrame.refl _)
    exact ⟨(engaged_of_frame hf :), (home_of_frame hf :)⟩
  · split <;> exact ⟨rfl, rfl⟩

theorem unstall (i : LockIndex) (hp : Evaluating P h) : Evaluating P (unstall i h) :=
  ⟨k.stalled _ hp.2.1 hp.2.2 hp.1, hp.2⟩

theorem stall (i : LockIndex) (hp : Evaluating P h) : Evaluating P (stall i h) := by
  unfold Machine.stall
  split
  · exact hp
  · exact ⟨k.stalled _ hp.2.1 hp.2.2 hp.1, hp.2⟩

theorem evaluateFrom (i : LockIndex) (j : Nat) (hp : Evaluating P h) : Evaluating P (evaluateFrom i j h) := by
  induction j generalizing h with
  | zero => exact k.unstall i hp
  | succ j ih =>
    unfold Machine.evaluateFrom
    split
    · exact k.unstall i hp
    · next w hw =>
      split
      · next hc =>
        split
        · next hroom =>
          obtain ⟨hph, hf, hh⟩ := hp
          obtain ⟨he, hho⟩ := offer_at_home (h := h) w
          exact ih ⟨k.offer hf hw hc hroom hph, he.trans hf, hho.trans hh⟩
        · exact k.stall i hp
      · exact k.unstall i hp

theorem evaluate (i : LockIndex) (hp : Evaluating P h) : Evaluating P (evaluate i h) := k.evaluateFrom i _ hp

theorem evaluateAll (l : List LockIndex) (hp : Evaluating P h) :
    Evaluating P (l.foldl (fun g i => Machine.evaluate i g) h) :=
  List.foldlRecOn (motive := Evaluating P) _ _ hp fun _ hg i _ => k.evaluate i hg

theorem stalledPass (hp : Evaluating P h) : Evaluating P (stalledPass h) := by
  unfold Machine.stalledPass
  refine List.foldlRecOn (motive := Evaluating P) _ _ hp fun g hg i _ => ?_
  split
  · exact k.evaluate i hg
  · exact hg

theorem evaluateChanged (l : List LockIndex) (hp : P h) (hf : h.htu.engaged = .free) : P (evaluateChanged l h) := by
  unfold Machine.evaluateChanged
  split
  · next hc => exact (k.stalledPass (k.evaluateAll _ ⟨hp, hf, hc.1⟩)).1
  · exact hp

theorem evaluateTouched (l : List LockIndex) (hp : P h) (hf : h.htu.engaged = .free) :
    P (evaluateTouched l h) ∧ (Machine.evaluateTouched l h).htu.engaged = .free := by
  unfold Machine.evaluateTouched
  split
  · next hh =>
    obtain ⟨he, hef, -⟩ := k.stalledPass (k.evaluateAll l ⟨hp, hf, hh⟩)
    exact ⟨he, hef⟩
  · exact ⟨hp, hf⟩

end EvalKept

/-- What an evaluation leaves alone in the station and the home. -/
def sameEngagement (h t : Hw) : Prop :=
  t.scu = h.scu ∧ t.lbc.record = h.lbc.record ∧ t.htu.engaged = h.htu.engaged ∧ t.htu.purge = h.htu.purge
    ∧ t.htu.decision = h.htu.decision ∧ t.htu.awaited = h.htu.awaited ∧ t.htu.rebuildTimer = h.htu.rebuildTimer

theorem sameEngagement.refl (h : Hw) : sameEngagement h h := ⟨rfl, rfl, rfl, rfl, rfl, rfl, rfl⟩

theorem eval_sameEngagement (h : Hw) : EvalKept (sameEngagement h) where
  quiet hq hp := by
    obtain ⟨hs, hh, hr, -⟩ := hq
    unfold sameEngagement
    rwa [hs, hh, hr]
  claimed _ _ hp := by simpa [sameEngagement] using hp
  moved _ _ _ _ _ hp := hp
  postedUp _ hp := hp
  postedDown hp := hp
  flagged _ _ hp := hp
  backlog _ hp := hp
  stalled _ _ _ hp := hp

/-! ### Claims taken -/

/-- A property of the home that also the end of a rebuild keeps. -/
structure AsideKept (P : Hw → Prop) : Prop extends PostKept P where
  awaited {h : Hw} (a : BitVec 16) : (∀ i, a.getLsbD i = true → h.htu.awaited.getLsbD i = true) → P h →
    P (h.setHtu { h.htu with awaited := a })
  /-- A rebuild ends (R137, R139). -/
  online {h : Hw} : h.scu.station = .rebuilding → P h →
    P { h with htu := { h.htu with awaited := 0, rebuildTimer := none }, scu := { h.scu with station := .online } }

namespace AsideKept

variable {P : Hw → Prop} (k : AsideKept P) {h : Hw}
include k

theorem unawait (s : StationId) (hp : P h) : P (unawait s h) := by
  unfold Machine.unawait
  split
  · next hc =>
    dsimp only
    split
    · exact k.raiseEvent _ (k.online (HomeKept.rebuilding_of_home hc.1) hp)
    · refine k.awaited _ (fun i hi => ?_) hp
      simp only [BitVec.getLsbD_and, Bool.and_eq_true] at hi
      exact hi.1
  · exact hp

omit k in
theorem unawait_engaged (s : StationId) (g : Hw) : (Machine.unawait s g).htu.engaged = g.htu.engaged := by
  unfold Machine.unawait
  split
  · dsimp only
    split
    · simp
    · rfl
  · rfl

end AsideKept

/-- A property of the home that the taking of a claim keeps. -/
structure TakeKept (P : Hw → Prop) : Prop extends AsideKept P where
  /-- A self-homed request is decided and applied (R52), and a GRANT outcome (R65, R66). -/
  request {h : Hw} (r : Request) : h.htu.engaged = .free → P h → P (serveSelfRequest r h)
  outcome {h : Hw} (i : LockIndex) (s : StationId) (n : SlotId) (a : Bool) : h.htu.engaged = .free → P h →
    P (applyGrantOutcome i s n a h)
  /-- A purge starts at a home out of INACTIVE; one of a rebuild expiry has emptied the awaited set (R19, R139). -/
  purging {h : Hw} (s : StationId) (ev rb : Bool) (rest : List StationId) : h.htu.engaged = .free → h.home ≠ .inactive →
    (rb = true → h.htu.awaited = 0) → P h → P (startPurge s ev rb rest h)
  /-- A claim leaves the place it waited at. -/
  arrived {h : Hw} {c : Claim} {rest : List Claim} : h.htu.engaged = .free → h.htu.arriving = c :: rest →
    c ≠ .lockTransaction → P h → P (h.setHtu { h.htu with arriving := rest })
  headed {h : Hw} {c : Claim} {rest : List Claim} : h.htu.engaged = .free → h.htu.claims = c :: rest →
    c ≠ .lockTransaction → P h → P (h.setHtu { h.htu with claims := rest })
  /-- A lock transaction that waited engages the home, and is decided (R51). -/
  metArrived {h : Hw} {rest : List Claim} : h.htu.engaged = .free → h.htu.arriving = .lockTransaction :: rest → P h →
    P (takeTransaction (h.setHtu { h.htu with arriving := rest }))
  met {h : Hw} {rest : List Claim} : h.htu.engaged = .free → h.htu.claims = .lockTransaction :: rest → P h →
    P (takeTransaction (h.setHtu { h.htu with claims := rest }))
  decided {h : Hw} : P h → P (takeEngaged h)

namespace TakeKept

variable {P : Hw → Prop} (k : TakeKept P) {h : Hw}
include k

theorem takePurgeCause (s : StationId) (ev : Bool) (hf : h.htu.engaged = .free) (hp : P h) :
    P (takePurgeCause s ev h) := by
  unfold Machine.takePurgeCause
  split
  · exact hp
  · next hi => exact k.purging _ _ _ _ hf hi (fun hc => by cases hc) hp

theorem deliverPurgeCause (s : StationId) (ev : Bool) (hp : P h) : P (deliverPurgeCause s ev h) := by
  unfold Machine.deliverPurgeCause
  split
  · exact hp
  · exact k.claimed (by simp) (by simp) hp

theorem takeRebuildExpiry (hf : h.htu.engaged = .free) (hp : P h) : P (takeRebuildExpiry h) := by
  unfold Machine.takeRebuildExpiry
  split
  · next hh =>
    split
    · exact hp
    · have ha := k.awaited 0 (by simp) hp
      have hi : h.home ≠ .inactive := by simp [hh]
      exact k.purging _ _ _ _ hf hi (fun _ => rfl) ha
  · exact hp

/-- A claim that is no lock transaction is taken by a free home. -/
theorem takeClaim (c : Claim) (hc : c ≠ .lockTransaction) (hf : h.htu.engaged = .free) (hp : P h) :
    P (takeClaim c h) := by
  cases c with
  | lockTransaction => exact absurd rfl hc
  | selfRequest r => exact k.request r hf hp
  | grantOutcome => exact k.outcome _ _ _ _ hf hp
  | internalOutcome => exact k.outcome _ _ _ _ hf hp
  | purgeCause => exact k.takePurgeCause _ _ hf hp
  | rebuildExpiry => exact k.takeRebuildExpiry hf hp

theorem takeArrived (q : Claim → Bool) (hp : P h) : P (takeArrived q h) := by
  unfold Machine.takeArrived
  split
  · next c rest hf ha =>
    split
    · by_cases hc : c = .lockTransaction
      · subst hc
        exact k.metArrived hf ha hp
      · exact k.takeClaim (h := h.setHtu _) c hc hf (k.arrived hf ha hc hp)
    · exact hp
  · exact hp

theorem takeArrivals (j : Nat) (hp : P h) : P (takeArrivals j h) := by
  induction j generalizing h with
  | zero => exact hp
  | succ j ih => exact ih (k.takeArrived _ hp)

theorem settleArrivals (hp : P h) : P (settleArrivals h) := k.takeArrivals _ hp

theorem takeHead (hp : P h) : P (takeHead h) := by
  unfold Machine.takeHead
  split
  · next c rest hf hc =>
    by_cases hl : c = .lockTransaction
    · subst hl
      exact k.met hf hc hp
    · exact k.takeClaim (h := h.setHtu _) c hl hf (k.headed hf hc hl hp)
  · exact hp

theorem takeWaiting (j : Nat) (hp : P h) : P (takeWaiting j h) := by
  induction j generalizing h with
  | zero => exact hp
  | succ j ih => exact ih (k.takeHead hp)

/-! ### Deliveries to the observers of a completion -/

theorem failWaits (s : StationId) (hp : P h) : P (failWaits s h) :=
  k.tracker ((tracker_frame h).failWaits s (TrackerFrame.refl h)) hp

theorem peerLeft (s : StationId) (ef : Bool) (hp : P h) : P (peerLeft s ef h) := by
  unfold Machine.peerLeft
  split
  · refine StationKept.inOrder ef (fun _ => k.raiseEvent _) (fun g hg => ?_) (k.unawait _ (k.deliverPurgeCause _ _ hp))
    exact k.tracker ((tracker_frame g).dropped s ((tracker_frame g).failWaits s (TrackerFrame.refl g))) hg
  · exact hp

theorem peerJoined (s : StationId) (p : BitVec 16) (ef : Bool) (hp : P h) : P (peerJoined s p ef h) := by
  unfold Machine.peerJoined
  split
  · next hc =>
    have hq := k.unawait s (k.deliverPurgeCause s false hp)
    have hs : (Machine.unawait s (Machine.deliverPurgeCause s false h)).scu.station.present = true :=
      StationKept.present_unawait s _ (by simpa using hc.1)
    have add : ∀ g : Hw, g.scu.station.present = true → P g → P (walkerAdd s (Machine.reissueWaits s g)) :=
      fun g hg hpg => k.tracker ((tracker_frame g).added s (by rwa [StationKept.reissueWaits_scu])
        ((tracker_frame g).reissueWaits s (TrackerFrame.refl g))) hpg
    unfold Machine.inOrder
    split
    · exact add _ (by simpa using hs) (k.raiseEvent _ hq)
    · exact k.raiseEvent _ (add _ hs hq)
  · exact hp

theorem observerCompleted (s : StationId) (x : Transaction) (p : BitVec 16) (ef : Bool) (hp : P h) :
    P (observerCompleted s x p ef h) := by
  unfold Machine.observerCompleted
  split
  · exact k.peerJoined _ _ _ hp
  · exact k.peerLeft _ _ hp
  · exact k.deliverPurgeCause _ _ hp
  · split
    · unfold evicted
      split
      · exact StationKept.inOrder ef (fun _ => k.raiseEvent _)
          (fun g => k.tracker ((tracker_frame g).revokeByEvict s (TrackerFrame.refl g))) hp
      · exact hp
    · exact hp
  all_goals exact hp

end TakeKept

/-! ### Changes of the tables -/

/-- A property of the home that each change of its tables keeps, and each taking of a claim. -/
structure TableKept (P : Hw → Prop) : Prop extends EvalKept P, AsideKept P where
  /-- The changes of a decision on a self-homed request (R52). -/
  changed {h : Hw} (r : Request) : h.htu.engaged = .free → P h →
    P (h.setHtu (h.htu.change (decideRequest h.home h.htu r).2))
  /-- An offer accepted or declined (R65, R66). -/
  accepted {h : Hw} (i : LockIndex) (s : StationId) (n : SlotId) : h.htu.engaged = .free → P h →
    P (h.setHtu { h.htu with
      holders := h.htu.holders.map fun e => if isOfferTo i s n e then { e with state := .held, posted := none } else e })
  declined {h : Hw} (i : LockIndex) (s : StationId) (n : SlotId) : h.htu.engaged = .free → P h →
    P (h.setHtu { h.htu with holders := h.htu.holders.filter fun e => !isOfferTo i s n e })
  /-- A purge starts at a home out of INACTIVE; one of a rebuild expiry has emptied the awaited set (R19, R139). -/
  purging {h : Hw} (s : StationId) (g : Purge) : h.htu.engaged = .free → h.home ≠ .inactive →
    (g.rebuild = true → h.htu.awaited = 0) → P h →
    P (h.setHtu { h.htu.engage .purge with
      waiters := h.htu.waiters.filter (·.station ≠ s), holders := h.htu.holders.filter (·.station ≠ s), purge := some g })
  /-- A claim leaves the place it waited at. -/
  arrived {h : Hw} {c : Claim} {rest : List Claim} : h.htu.engaged = .free → h.htu.arriving = c :: rest →
    c ≠ .lockTransaction → P h → P (h.setHtu { h.htu with arriving := rest })
  headed {h : Hw} {c : Claim} {rest : List Claim} : h.htu.engaged = .free → h.htu.claims = c :: rest →
    c ≠ .lockTransaction → P h → P (h.setHtu { h.htu with claims := rest })
  /-- A lock transaction that waited engages the home, and is decided (R51). -/
  metArrived {h : Hw} {rest : List Claim} : h.htu.engaged = .free → h.htu.arriving = .lockTransaction :: rest → P h →
    P (takeTransaction (h.setHtu { h.htu with arriving := rest }))
  met {h : Hw} {rest : List Claim} : h.htu.engaged = .free → h.htu.claims = .lockTransaction :: rest → P h →
    P (takeTransaction (h.setHtu { h.htu with claims := rest }))
  decided {h : Hw} : P h → P (takeEngaged h)

namespace TableKept

variable {P : Hw → Prop} (k : TableKept P) {h : Hw}
include k

/-- A decision is applied at a free home, from the changed tables on (R54). -/
theorem applyChanges {f : Hw → Hw} (hf : ∀ g, Quiet g (f g)) (c : Changes) (hfree : h.htu.engaged = .free)
    (hp : P (h.setHtu (h.htu.change c))) : P (applyChanges c f h) := by
  have hu : ∀ g : Hw, P g → g.htu.engaged = .free → P (unawaitOption c.unawait g)
      ∧ (unawaitOption c.unawait g).htu.engaged = .free := by
    intro g hg he
    unfold unawaitOption
    split
    · exact ⟨k.unawait _ hg, (AsideKept.unawait_engaged _ g).trans he⟩
    · exact ⟨hg, he⟩
  obtain ⟨hpu, heu⟩ := hu _ hp hfree
  have hfree : (f (unawaitOption c.unawait (h.setHtu (h.htu.change c)))).htu.engaged = .free := by
    rw [(hf _).2.1]
    exact heu
  refine k.evaluateChanged _ (k.withdrawOffers _ (.inl hfree) (k.quiet (hf _) hpu)) ?_
  rw [PostKept.withdrawOffers_engaged, hfree]

omit k in
theorem quiet_handResponse (p : SelfResponse) (g : Hw) : Quiet g (handResponse p g) := Quiet.of_lbc rfl rfl rfl

theorem serveSelfRequest (r : Request) (hf : h.htu.engaged = .free) (hp : P h) : P (serveSelfRequest r h) :=
  k.applyChanges (quiet_handResponse _) _ hf (k.changed r hf hp)

theorem applyGrantOutcome (i : LockIndex) (s : StationId) (n : SlotId) (a : Bool) (hf : h.htu.engaged = .free)
    (hp : P h) : P (applyGrantOutcome i s n a h) := by
  unfold Machine.applyGrantOutcome
  split
  · cases a
    · have hc := k.declined i s n hf hp
      exact k.evaluateChanged [i] hc hf
    · have hc := k.accepted i s n hf hp
      exact k.evaluateChanged [i] hc hf
  · exact hp

theorem startPurge (s : StationId) (ev rb : Bool) (rest : List StationId) (hf : h.htu.engaged = .free)
    (hi : h.home ≠ .inactive) (ha : rb = true → h.htu.awaited = 0) (hp : P h) : P (startPurge s ev rb rest h) :=
  k.withdrawOffers _ (.inr (.inl rfl)) (k.purging s _ hf hi ha hp)

/-- Each change kept, the taking of a claim is kept. -/
theorem take : TakeKept P where
  toAsideKept := k.toAsideKept
  request r hf hp := k.serveSelfRequest r hf hp
  outcome i s n a hf hp := k.applyGrantOutcome i s n a hf hp
  purging s ev rb rest hf hi ha hp := k.startPurge s ev rb rest hf hi ha hp
  arrived := k.arrived
  headed := k.headed
  metArrived := k.metArrived
  met := k.met
  decided := k.decided

/-! ### The home freed at a completion -/

/-- The home freed at a completion where it answered makes its decision, unless the completion is voided (R24). -/
theorem answeredWork {g : Hw} (o : BusOutcome) (hp : P (g.setHtu g.htu.freed))
    (hd : ∀ d, g.htu.decision = some d → P (g.setHtu (g.htu.freed.change d.changes))) :
    P ((if o = .void then id else applyDecision g.htu.decision) (g.setHtu g.htu.freed)) := by
  split
  · exact hp
  · unfold applyDecision
    split
    · next d hdec => exact k.applyChanges (fun g => Quiet.refl g) d.changes rfl (hd d hdec)
    · exact hp

end TableKept

/-! ### The end of a purge -/

/-- A property of the home that the end of a purge keeps. -/
structure PurgeKept (P : Hw → Prop) : Prop extends TableKept P where
  purged {h : Hw} {p : Purge} : h.htu.purge = some p → P h →
    P (h.setHtu { h.htu with purge := none, engaged := .free })
  /-- The next purge of a rebuild expiry starts. -/
  next {h : Hw} (s : StationId) (g : Purge) : h.htu.engaged = .free → P h →
    P (h.setHtu { h.htu.engage .purge with
      waiters := h.htu.waiters.filter (·.station ≠ s), holders := h.htu.holders.filter (·.station ≠ s), purge := some g })
  /-- The rebuild ends after its last purge. -/
  rebuilt {h : Hw} : h.scu.station = .rebuilding → P h →
    P { h with htu := { h.htu with rebuildTimer := none }, scu := { h.scu with station := .online } }

namespace PurgeKept

variable {P : Hw → Prop} (k : PurgeKept P) {h : Hw}
include k

theorem endRebuild (hp : P h) : P (endRebuild h) := by
  unfold Machine.endRebuild
  split
  · next hs => exact k.raiseEvent _ (k.rebuilt hs hp)
  · exact hp

theorem continueRebuild (p : Purge) (hf : h.htu.engaged = .free) (hp : P h) : P (continueRebuild p h) := by
  have hr : P (Machine.raiseEvent (.rebuildEvicted p.station) h) := k.raiseEvent _ hp
  unfold Machine.continueRebuild
  split
  · dsimp only
    split
    · exact k.withdrawOffers _ (.inr (.inl rfl)) (k.next _ _ (by simpa using hf) hr)
    · exact k.endRebuild hr
  · exact hp

/-- The home freed at the end of a purge, before its evaluations (R21, steps 1 and 2). -/
def purgeFreed (p : Purge) (h : Hw) : Hw :=
  let q := Machine.refill Config.postedLimit (queueEvict p h)
  q.setHtu { q.htu with purge := none, engaged := .free }

omit k in
theorem endPurge_eq (p : Purge) (h : Hw) :
    Machine.endPurge p h = Machine.continueRebuild p (evaluateTouched p.touched (purgeFreed p h)) := rfl

omit k in
@[simp] theorem queueEvict_htu (p : Purge) (h : Hw) : (queueEvict p h).htu = h.htu := by
  unfold queueEvict
  split <;> rfl

theorem freed {p : Purge} (hg : h.htu.purge = some p) (hp : P h) : P (purgeFreed p h) := by
  have hb : offBus (queueEvict p h) := .inr (.inl (by simp [hg]))
  refine k.purged (p := p) (by simpa using hg) (k.refill _ hb ?_)
  unfold queueEvict
  split
  · exact k.placePriority _ hp
  · exact hp

theorem endPurge {p : Purge} (hg : h.htu.purge = some p) (hp : P h) : P (endPurge p h) := by
  rw [endPurge_eq]
  obtain ⟨he, hf⟩ := k.evaluateTouched p.touched (k.freed hg hp) rfl
  exact k.continueRebuild p hf he

theorem finishPurge (hp : P h) : P (finishPurge h) := by
  unfold Machine.finishPurge
  split
  · exact hp
  · next hg => exact k.take.takeWaiting _ (k.endPurge hg hp)

end PurgeKept

end Sys2Proof.Machine
end

section
/-! What every command does to the home: `HtuKept` lists the moves a property of the home has to keep, and
`HtuKept.effect` says that then every command, and the tick, keeps it. -/

namespace Sys2Proof.Machine

/-- What the membership unit's part of a completion leaves alone: the home and its state, the ID, the record, and the
entries of the normal list, which it can only remove. -/
def HomeFrame (h t : Hw) : Prop :=
  (t.scu.station.home = h.scu.station.home ∧ t.scu.id = h.scu.id) ∧ t.htu = h.htu ∧ t.lbc.record = h.lbc.record
    ∧ ∀ x ∈ t.lbc.normal, x ∈ h.lbc.normal

/-- A property of the home that each move of the station keeps. -/
structure HtuKept (P : Hw → Prop) : Prop extends TakeKept P where
  /-- The SCU alters, the home state stays, and the ID while the station rebuilds. -/
  control {h : Hw} {c : Scu} : c.station.home = h.scu.station.home → (h.scu.station = .rebuilding → c.id = h.scu.id) →
    P h → P { h with scu := c }
  /-- The home enters service, with a rebuild where other stations are present (R3). -/
  entered {h : Hw} (st : StationState) (a : BitVec 16) (t : Option Nat) : h.scu.station = .joining →
    h.lbc.record = none → st = .online ∧ a = 0 ∨ st = .rebuilding → a.getLsbD h.id.val = false → P h →
    P { h with scu := { h.scu with station := st }, htu := h.htu.entered a t }
  reset (c : CommandStatus) (h : Hw) : P (stationReset c h)
  left (h : Hw) : P (ownLeave h)
  gone {h : Hw} : (h.scu.station = .rebuilding ∨ h.scu.station = .online) → P h → P (goneLeaving h)
  /-- The rebuild timer expires, and advances. -/
  expired {h : Hw} : h.htu.rebuildTimer.isSome = true → P h →
    P (addClaim .rebuildExpiry (h.setHtu { h.htu with rebuildTimer := none }))
  ticked {h : Hw} : P h → P (h.setHtu { h.htu with rebuildTimer := countDown h.htu.rebuildTimer })
  /-- The phases on the lockbus, to the completion. -/
  rounds {h : Hw} (pl nl : BitVec 16) : h.lbc.record = none → P h → P (holdRounds pl nl h)
  requested {h : Hw} (a b : Lines) : P h → P (readRequestPhase a b h)
  observed {h : Hw} (l : Lines) : P h → P (startObservation l h)
  observationClosed {h : Hw} (l : Lines) : P h → P (closeObservation l h)
  responded {h : Hw} (l : Lines) : P h → P (readResponsePhase l h)
  /-- The record closes, but at the home that answers. -/
  closed {h : Hw} {r : TxRecord} : h.lbc.record = some r → r.phase = .completion →
    (r.role = .responder → ∀ x, recordRequest r = some x → x.kind = .grant) → P h → P (closeRecord h)
  /-- The home that answers is freed, and makes its decision where the completion is not voided. -/
  answered {h g : Hw} {r : TxRecord} {x : Transaction} (o : BusOutcome) : h.lbc.record = some r →
    r.phase = .completion → r.role = .responder → recordRequest r = some x → x.kind ≠ .grant →
    HomeFrame (closeRecord h) g → P h → P (endEngagement (if o = .void then id else applyDecision g.htu.decision) g)
  /-- The home is freed at the completion of its GRANT, with or without the outcome behind its claims. -/
  released {h g : Hw} {r : TxRecord} {x : Transaction} {cs : List Claim} : h.lbc.record = some r →
    r.role = .initiator → r.entry = some x → x.kind = .grant → P h → g.htu.engaged = h.htu.engaged →
    g.lbc.record = none → (∀ c ∈ cs, c ≠ .lockTransaction ∧ c ≠ .rebuildExpiry) → P g →
    P (endEngagement id (g.setHtu { g.htu with claims := g.htu.claims ++ cs }))
  /-- A purge ends (R21). -/
  finished {h : Hw} : P h → P (finishPurge h)

/-! ### The membership unit at a completion -/

theorem HomeFrame.of_eq {h t : Hw} (hs : t.scu = h.scu) (hh : t.htu = h.htu) (hl : t.lbc = h.lbc) : HomeFrame h t :=
  ⟨⟨by rw [hs], by rw [hs]⟩, hh, by rw [hl], fun _ hx => hl ▸ hx⟩

theorem enterDuplicate_frame {h : Hw} (hn : h.scu.station = .listening ∨ h.scu.station = .joining) :
    HomeFrame h (enterDuplicate h) := by
  refine ⟨⟨?_, by simp [enterDuplicate, removeNormal]⟩, ?_, ?_, fun x hx => ?_⟩
  · rcases hn with hn | hn <;> simp [enterDuplicate, removeNormal, hn, StationState.home]
  · simp [enterDuplicate, removeNormal]
  · simp [enterDuplicate, removeNormal]
  · simp only [enterDuplicate, raiseEvent_lbc, removeNormal] at hx
    exact List.mem_of_mem_filter hx

theorem sighting_frame (w : StationId) (i : Bool) (h : Hw) : HomeFrame h (sighting w i h) := by
  unfold sighting
  split
  · exact .of_eq rfl rfl rfl
  · split
    · exact .of_eq rfl rfl rfl
    · split
      · next hs => exact enterDuplicate_frame (.inl hs)
      · next hs => exact enterDuplicate_frame (.inr hs)
      all_goals exact .of_eq rfl rfl rfl

theorem membershipCompleted_frame (r : TxRecord) (o : BusOutcome) (h : Hw) :
    HomeFrame h (membershipCompleted r o h) := by
  unfold membershipCompleted
  split
  · split
    · unfold peerAbsent
      split <;> exact .of_eq rfl rfl rfl
    · exact sighting_frame _ _ h
  · exact sighting_frame _ _ h

theorem readHead_htu (h : Hw) : (readHead h).htu = h.htu := by
  unfold readHead
  split
  · rfl
  · unfold afterRead
    split
    · unfold readDone
      split <;> rfl
    · rfl
    · rfl

/-- What a configuration write leaves alone (R173). -/
theorem writeConfig_frame {r : ConfigRegister} {w : Word} {h g : Hw} (hg : writeConfig r w h = some g) :
    g.scu.station = h.scu.station ∧ g.scu.id = h.scu.id ∧ g.htu = h.htu ∧ g.lbc = h.lbc := by
  cases r with
  | routes j =>
    simp only [writeConfig, Option.map_eq_some_iff] at hg
    obtain ⟨rs, -, hg⟩ := hg
    rw [← hg]
    exact ⟨by simp [Scu.setRoutes], by simp [Scu.setRoutes], rfl, rfl⟩
  | station =>
    simp only [writeConfig, Option.map_eq_some_iff] at hg
    obtain ⟨f, -, hg⟩ := hg
    rw [← hg]
    exact ⟨by simp [Scu.setConfig], by simp [Scu.setConfig], rfl, rfl⟩

namespace HtuKept

variable {P : Hw → Prop} (k : HtuKept P) {h : Hw}
include k

theorem framed {t : Hw} (hf : HomeFrame h t) (hp : P h) : P t := by
  obtain ⟨hs, hh, hr, hn⟩ := hf
  have hc : P { h with scu := t.scu } := k.control hs.1 (fun _ => hs.2) hp
  exact k.still hc ⟨rfl, hh, hr, fun x hx => .inl (hn x hx)⟩

/-! ### The completion -/

theorem ownJoin (p : BitVec 16) (hr : h.lbc.record = none) (hp : P h) : P (ownJoin p h) := by
  unfold Machine.ownJoin
  split
  · exact hp
  · next hj =>
    have hj' : h.scu.station = .joining := not_not.mp hj
    split
    · exact k.framed (enterDuplicate_frame (.inr hj')) hp
    · next hown =>
      split
      · exact k.raiseEvent _ (k.still (k.entered .online 0 none hj' hr (.inl ⟨rfl, rfl⟩) (by simp) hp) (Quiet.of_lbc rfl rfl rfl))
      · exact k.raiseEvent _ (k.still
          (k.entered .rebuilding p (some (Config.rebuildPeriods * h.period)) hj' hr (.inr rfl)
            (Bool.eq_false_iff.mpr hown) hp)
          (Quiet.of_lbc rfl rfl rfl))

theorem endFlush (hp : P h) : P (endFlush h) := by
  have hc : P { h with scu := { h.scu with flushing := false } } := k.control rfl (fun _ => rfl) hp
  have hq : P (flushCleared h) := k.still hc (Quiet.of_lbc rfl rfl rfl)
  have hw : P (Machine.raiseEvent .flushDone (walkerAct (flushCleared h))) :=
    k.raiseEvent _ (k.tracker ((tracker_frame _).walk (TrackerFrame.refl _)) hq)
  rw [endFlush_eq]
  split
  · refine k.still hw ⟨rfl, rfl, rfl, fun x hx => ?_⟩
    rw [placeNormal_normal, List.mem_append, List.mem_singleton] at hx
    exact hx.imp_right fun he => by simp [he]
  · exact hw

theorem keepEntry (round : Round) {x : Transaction} (hx : x.kind ≠ .grant) (hp : P h) : P (keepEntry round x h) := by
  cases round
  · exact k.still hp (Quiet.of_eq rfl rfl rfl rfl)
  · refine k.still hp ⟨rfl, rfl, rfl, fun y hy => ?_⟩
    exact (List.mem_cons.mp hy).symm.imp_right fun he => by rwa [he]

theorem initiatorCompleted {g : Hw} {r : TxRecord} {x : Transaction} (hr : h.lbc.record = some r)
    (hrole : r.role = .initiator) (hx : r.entry = some x) (hg : g.htu.engaged = h.htu.engaged)
    (hn : g.lbc.record = none) (round : Round) (pr : BitVec 16) (o : BusOutcome) (hp : P h) (hpg : P g) :
    P (initiatorCompleted round x pr o g) := by
  have slot : x.kind.isSlot = true → P (slotOutcome x o g) := fun hs =>
    k.tracker ((tracker_frame g).slotOutcome hs o (TrackerFrame.refl g)) hpg
  unfold Machine.initiatorCompleted
  split
  case h_1 hk => exact slot (by rw [hk]; rfl)
  case h_2 hk => exact slot (by rw [hk]; rfl)
  case h_3 hk => exact slot (by rw [hk]; rfl)
  case h_4 hk => exact slot (by rw [hk]; rfl)
  case h_5 hk =>
    have free : ∀ (u : Hw) (cs : List Claim), u.htu.engaged = g.htu.engaged → u.lbc.record = none →
        (∀ c ∈ cs, c ≠ .lockTransaction ∧ c ≠ .rebuildExpiry) → P u →
        P (endEngagement id (u.setHtu { u.htu with claims := u.htu.claims ++ cs })) := fun u cs hu hun hcs hpu =>
      k.released hr hrole hx hk hp (hu.trans hg) hun hcs hpu
    have plain : ∀ u : Hw, u.htu.engaged = g.htu.engaged → u.lbc.record = none → P u →
        P (endEngagement id u) := fun u hu hun hpu => by
      simpa [Hw.setHtu] using free u [] hu hun (by simp) hpu
    have hd : P (Machine.departGrant g) := k.departGrant (.inr (.inr hn)) hpg
    unfold grantCompleted
    split
    · exact plain _ rfl hn (k.still hpg (Quiet.of_eq rfl rfl rfl rfl))
    · dsimp only
      split
      · exact k.claimed (by simp) (by simp) (plain _ (by simp) (by simpa using hn) hd)
      · exact free _ _ (by simp) (by simpa using hn) (by simp) hd
  case h_6 hk => exact k.tracker ((tracker_frame g).reassertOutcome hk o (TrackerFrame.refl g)) hpg
  case h_7 hk => split <;> [exact k.keepEntry round (by simp [hk]) hpg; exact hpg]
  case h_8 hk => split <;> [exact k.keepEntry round (by simp [hk]) hpg; exact hpg]
  case h_9 hk => split <;> [exact k.keepEntry round (by simp [hk]) hpg; exact k.ownJoin _ hn hpg]
  case h_10 hk => split <;> [exact k.keepEntry round (by simp [hk]) hpg; exact k.left g]
  case h_11 hk =>
    split <;> [exact k.keepEntry round (by simp [hk]) hpg; exact k.deliverPurgeCause _ _ (k.endFlush hpg)]

/-- The completion at the responder, by what the membership unit left (R39, R40). -/
theorem responderCompleted {g : Hw} {r : TxRecord} {x : Transaction} (hr : h.lbc.record = some r)
    (hph : r.phase = .completion) (hrole : r.role = .responder) (hx : recordRequest r = some x) (o : BusOutcome)
    (hg : HomeFrame (closeRecord h) g) (hp : P h) : P (responderCompleted x o g) := by
  unfold Machine.responderCompleted
  split
  · next hk =>
    have hc : P (closeRecord h) := k.closed hr hph (fun _ y hy => by
      obtain rfl := Option.some.inj (hx.symm.trans hy)
      exact hk) hp
    exact k.tracker ((tracker_frame g).settleAnswer _ (TrackerFrame.refl g)) (k.framed hg hc)
  · next hk => exact k.answered o hr hph hrole hx hk hg hp

theorem completeTransaction (l : Lines) (ef : Bool) (hp : P h) : P (completeTransaction l ef h) := by
  unfold Machine.completeTransaction
  split
  · exact hp
  · next r hr =>
    split
    · next hph =>
      dsimp only
      generalize ho : settle (r.noteVoid r.error l.lvoid) = o
      obtain ⟨g, hgd, hg⟩ : ∃ g, Machine.membershipCompleted (r.noteVoid r.error l.lvoid) o (closeRecord h) = g
          ∧ HomeFrame (closeRecord h) g := ⟨_, rfl, membershipCompleted_frame _ o _⟩
      rw [hgd]
      have hpg : r.role ≠ .responder → P g := fun hc => k.framed hg (k.closed hr hph (fun h => absurd h hc) hp)
      have ⟨_, hgh, hgr, _⟩ := hg
      unfold deliver
      dsimp only
      split
      · next hrole =>
        have hn : P g := hpg (by rw [show r.role = .initiator from hrole]; simp)
        split
        · next x hx => exact k.initiatorCompleted hr hrole hx (by rw [hgh]; rfl) hgr _ _ o hp hn
        · exact hn
      · next hrole =>
        split
        · next x hx => exact k.responderCompleted hr hph hrole hx o hg hp
        · next hx =>
          refine k.framed hg (k.closed hr hph (fun _ y hy => ?_) hp)
          rw [show recordRequest r = none from hx] at hy
          cases hy
      · next hrole =>
        have hn : P g := hpg (by rw [show r.role = .observer from hrole]; simp)
        split
        · split
          · exact hn
          · exact k.observerCompleted _ _ _ _ hn
        · exact hn
    · exact hp

/-! ### The other commands -/

theorem arbitrate (pl nl : BitVec 16) (hp : P h) : P (arbitrate pl nl h) := by
  unfold Machine.arbitrate
  split
  · next hc =>
    have hr : h.lbc.record = none := Option.isNone_iff_eq_none.mp hc.2
    refine k.rounds pl nl (StationKept.none_of_carries ?_) (k.settleArrivals hp)
    exact (StationKept.carries_kept none).settleArrivals (by rw [StationKept.carries, hr])
  · exact hp

theorem powerOnReset (i : StationId) (b : Fin 4) : P (powerOnReset i b h) := by
  have hc : P { stationReset .none h with scu := .reset i b } := k.control rfl (fun hc => by cases hc) (k.reset .none h)
  exact k.still hc (Quiet.of_lbc rfl rfl rfl)

theorem startFlush (hp : P h) : P (startFlush h) := by
  have hc : P { h with scu := { h.scu with flushing := true } } := k.control rfl (fun _ => rfl) hp
  exact k.still hc ⟨rfl, rfl, rfl, fun _ hx => .inl (List.mem_of_mem_filter hx)⟩

theorem fallCrst (hp : P h) : P (fallCrst h) := by
  unfold Machine.fallCrst
  split
  · exact k.startFlush hp
  · exact hp

theorem setStatus (c : CommandStatus) (hp : P h) : P (setStatus c h) := k.control rfl (fun _ => rfl) hp

theorem joinCommand (hp : P h) : P (joinCommand h) := by
  unfold Machine.joinCommand
  split
  · next hc =>
    have hm : P (h.setMember h.id { state := .self, timer := none }) := k.still hp (Quiet.of_lbc rfl rfl rfl)
    unfold takeJoin
    exact k.control (by simp [hc.1, StationState.home]) (fun _ => rfl) hm
  · exact k.setStatus _ hp

theorem leaveCommand (hp : P h) : P (leaveCommand h) := by
  unfold Machine.leaveCommand
  split
  · next hs =>
    obtain ⟨-, ht⟩ | ⟨-, ht⟩ := takeLeave_cases h <;> rw [ht]
    · exact k.gone hs hp
    · exact k.startFlush (k.gone hs hp)
  · exact k.setStatus _ hp

theorem flushCommand (hp : P h) : P (flushCommand h) := by
  unfold Machine.flushCommand
  split
  · exact k.startFlush (k.setStatus _ hp)
  · exact k.setStatus _ hp

theorem queueRead (be : BitVec 4) (hp : P h) : P (queueRead be h) := by
  unfold Machine.queueRead
  split
  · exact k.still hp (Quiet.of_lbc rfl rfl rfl)
  · exact k.still hp (Quiet.of_lbc (readHead_scu h) (readHead_htu h) (readHead_lbc h))

theorem configWrite (r : ConfigRegister) (w : Word) (hp : P h) : P (configWrite r w h) := by
  have status : ∀ c g, P g → P (setConfigStatus c g) := fun c g hg =>
    k.control (h := g) (c := { g.scu with configStatus := c }) rfl (fun _ => rfl) hg
  unfold Machine.configWrite
  split
  · exact status _ _ hp
  · split
    · exact status _ _ hp
    · next g hg =>
      obtain ⟨hs, hid, hh, hl⟩ := writeConfig_frame hg
      have hc : P { h with scu := g.scu } := k.control (by rw [hs]) (fun _ => hid) hp
      exact status _ _ (k.still hc (Quiet.of_lbc rfl hh hl))

theorem beaconExpiry (hp : P h) : P (beaconExpiry h) := by
  unfold Machine.beaconExpiry
  split
  · dsimp only
    split
    · refine k.still hp ⟨rfl, rfl, rfl, fun x hx => ?_⟩
      rw [placeNormal_normal, List.mem_append, List.mem_singleton] at hx
      exact hx.imp_right fun he => by simp [he]
    · exact k.still hp (Quiet.of_lbc rfl rfl rfl)
  · exact hp

theorem declareLost (p : StationId) (ef : Bool) (hp : P h) : P (declareLost p ef h) :=
  StationKept.inOrder ef (fun _ => k.raiseEvent _) (fun _ => k.failWaits _)
    (k.unawait _ (k.deliverPurgeCause _ _ (k.still hp (Quiet.of_lbc rfl rfl rfl))))

theorem silenceExpiry (p : StationId) (ef : Bool) (hp : P h) : P (silenceExpiry p ef h) := by
  unfold Machine.silenceExpiry
  split
  · exact k.declareLost _ _ hp
  · exact hp

theorem listenExpiry (hp : P h) : P (listenExpiry h) := by
  unfold Machine.listenExpiry
  split
  · next hc =>
    have hs : P { h with scu := { h.scu with station := .joining, listenTimer := none } } :=
      k.control (by simp [hc.2, StationState.home]) (fun _ => rfl) hp
    refine k.still hs ⟨rfl, rfl, rfl, fun x hx => ?_⟩
    rw [placeNormal_normal, List.mem_append, List.mem_singleton] at hx
    exact hx.imp_right fun he => by simp [he]
  · exact hp

theorem rebuildExpiry (hp : P h) : P (rebuildExpiry h) := by
  refine k.takeArrived _ ?_
  split
  · next ht => exact k.expired ht hp
  · exact hp

theorem pulseEnd (j : LineId) (hp : P h) : P (pulseEnd j h) := by
  unfold Machine.pulseEnd
  split
  · exact k.still hp (Quiet.of_lbc rfl rfl rfl)
  · exact hp

theorem tickHw (hp : P h) : P (tickHw h) := by
  have hs : P { h with scu := { h.scu with listenTimer := countDown h.scu.listenTimer } } := k.control rfl (fun _ => rfl) hp
  exact k.still (k.ticked hs) (Quiet.of_lbc rfl rfl rfl)

/-- Every command keeps the property, where the release of the straps does. -/
theorem effect (c : Instr) (hrel : ∀ i b, P (releasePor i b h)) (hp : P h) : P (effect c h) := by
  have track : ∀ t, TrackerFrame h t → P t := fun t ht => k.tracker ht hp
  have T := tracker_frame h
  have R := TrackerFrame.refl h
  cases c
  case powerOnReset => exact k.powerOnReset _ _
  case porNRelease => exact hrel _ _
  case stationReset => exact k.still (k.reset .none h) (Quiet.of_lbc rfl rfl rfl)
  case srstNRelease => exact k.still hp (Quiet.of_lbc rfl rfl rfl)
  case crstN => exact k.fallCrst hp
  case join => exact StationKept.atPort k.joinCommand hp
  case leave => exact StationKept.atPort k.leaveCommand hp
  case flush => exact StationKept.atPort k.flushCommand hp
  case reset => exact StationKept.atPort (fun _ => k.reset _ h) hp
  case stationCommandInvalid => exact StationKept.atPort (k.setStatus _) hp
  case acquire => exact StationKept.atPort (fun _ => track _ (T.acquireCommand _ _ _ R)) hp
  case release => exact StationKept.atPort (fun _ => track _ (T.releaseCommand _ R)) hp
  case downgrade => exact StationKept.atPort (fun _ => track _ (T.downgradeCommand _ R)) hp
  case cancel => exact StationKept.atPort (fun _ => track _ (T.cancelCommand R)) hp
  case slotCommandInvalid => exact StationKept.atPort (fun _ => track _ (T.refuse _ R)) hp
  case slotParameterWrite => exact StationKept.atPort (fun _ => k.still hp (Quiet.of_lbc rfl rfl rfl)) hp
  case queueHeadRead => exact k.queueRead _ hp
  case configurationWrite => exact StationKept.atPort (k.configWrite _ _) hp
  case portWriteIgnored => exact hp
  case arbitration => exact k.arbitrate _ _ hp
  case requestPhase => exact k.requested _ _ hp
  case observationPhase => exact k.observed _ hp
  case observationClose => exact k.observationClosed _ hp
  case responsePhase => exact k.responded _ hp
  case completion => exact k.completeTransaction _ _ hp
  case lockTransactionClaim => exact k.decided hp
  case selfHomedRequest => exact k.takeArrived _ hp
  case selfHomedResponse => exact track _ (T.takeSlotResponse R)
  case grantOutcome => exact k.takeArrived _ hp
  case internalGrantOutcome => exact k.takeArrived _ hp
  case purgeCause => exact k.takeArrived _ hp
  case purgeEnd => exact k.finished hp
  case waitTimerExpiry => exact track _ (T.waitExpiry R)
  case backoffTimerExpiry => exact track _ (T.backoffExpiry R)
  case beaconTimerExpiry => exact k.beaconExpiry hp
  case silenceTimerExpiry => exact k.silenceExpiry _ _ hp
  case listenWindowExpiry => exact k.listenExpiry hp
  case rebuildTimerExpiry => exact k.rebuildExpiry hp
  case notifyPulse => exact k.pulseEnd _ hp

/-- Every step keeps the property, where the release of the straps does. -/
theorem step {s t : State} (hrel : ∀ i b, P (releasePor i b s.hw)) (hp : P s.hw) (ht : step s = .next t) : P t.hw :=
  step_keeps (k.tickHw hp) (fun c => k.effect c hrel hp) ht

end HtuKept

/-- A property of the home that each move of the station keeps, and any change of the SCU but for the station state. -/
structure StrapKept (P : Hw → Prop) : Prop extends HtuKept P where
  strapped {h : Hw} {c : Scu} : c.station = h.scu.station → P h → P { h with scu := c }

namespace StrapKept

variable {P : Hw → Prop} (k : StrapKept P)
include k

theorem releasePor {h : Hw} (i : StationId) (b : Fin 4) (hp : P h) : P (releasePor i b h) := by
  unfold Machine.releasePor
  split
  · have hc : P { h with scu := { h.scu with id := i, bpsel := b } } := k.strapped rfl hp
    exact k.still hc (Quiet.of_lbc rfl rfl rfl)
  · exact hp

/-- Every step keeps the property. -/
theorem step {s t : State} (hp : P s.hw) (ht : Machine.step s = .next t) : P t.hw :=
  k.toHtuKept.step (fun i b => k.releasePor i b hp) hp ht

end StrapKept

end Sys2Proof.Machine
end

section
/-! GRANTs posted (R14, a part of O59): at most 8, by every move of the home. -/

namespace Sys2Proof.Machine

/-- What LOCK_TRANSACTION_CLAIM does: nothing, or the decision is recorded and LSTALL released (R51). -/
theorem takeEngaged_cases (h : Hw) :
    takeEngaged h = h ∨ ∃ r, busRequest h = some r ∧ h.htu.engaged = .transaction ∧ h.htu.decision = none
      ∧ r.kind.isLock = true ∧ (∃ x, h.lbc.record = some x ∧ x.role = .responder ∧ x.phase = .observing)
      ∧ takeEngaged h = recordDecision r h := by
  unfold takeEngaged
  split
  · exact .inl rfl
  · next r hr =>
    split
    · next hc =>
      obtain ⟨he, hd, hk, hrec⟩ := hc
      obtain ⟨x, hx, hp⟩ := Option.any_eq_true _ _ |>.mp hrec
      simp only [Bool.and_eq_true, decide_eq_true_eq] at hp
      exact .inr ⟨r, hr, he, hd, hk, ⟨x, hx, hp⟩, rfl⟩
    · exact .inl rfl

/-- A decision recorded is all that LOCK_TRANSACTION_CLAIM changes in the home. -/
theorem takeEngaged_htu (h : Hw) : ∃ d, (takeEngaged h).htu = { h.htu with decision := d } := by
  obtain he | ⟨r, -, -, -, -, -, he⟩ := takeEngaged_cases h <;> rw [he]
  · exact ⟨h.htu.decision, rfl⟩
  · exact ⟨_, rfl⟩

theorem takeEngaged_posted (h : Hw) : (takeEngaged h).htu.posted = h.htu.posted := by
  obtain ⟨d, hd⟩ := takeEngaged_htu h
  rw [hd]

theorem takeTransaction_posted (h : Hw) : (takeTransaction h).htu.posted = h.htu.posted := takeEngaged_posted _

theorem posted_purge : PurgeKept fun h => h.htu.posted ≤ 8 where
  quiet hq hp := by
    obtain ⟨-, hh, -⟩ := hq
    rwa [hh]
  claimed _ _ hp := by simpa using hp
  moved _ _ _ _ _ hp := hp
  postedUp hlt _ := hlt
  backlog _ hp := hp
  stalled _ _ _ hp := hp
  postedDown hp := (Nat.sub_le _ _).trans hp
  flagged _ _ hp := hp
  awaited _ _ hp := hp
  online _ hp := hp
  changed _ _ hp := hp
  accepted _ _ _ _ hp := hp
  declined _ _ _ _ hp := hp
  purging _ _ _ _ _ hp := hp
  arrived _ _ _ hp := hp
  headed _ _ _ hp := hp
  metArrived _ _ hp := by rwa [takeTransaction_posted]
  met _ _ hp := by rwa [takeTransaction_posted]
  decided hp := by rwa [takeEngaged_posted]
  purged _ hp := hp
  next _ _ _ hp := hp
  rebuilt _ hp := hp

/-- What a win does to the home: the own GRANT engages it (R23). -/
theorem wonBy_htu (w : StationId) (round : Round) (c : Option Transaction) (h : Hw) :
    ((wonBy w round c h).htu = h.htu ∧ ∀ x, entryOnBus (wonBy w round c h) = some x → x.kind ≠ .grant)
      ∨ (∃ x, c = some x ∧ x.kind = .grant ∧ (wonBy w round c h).htu = h.htu.engage .grant) := by
  have hleave : (leaveList round h).htu = h.htu := by cases round <;> rfl
  generalize hentry : (if w = h.id then c else none) = entry
  have hbus : entryOnBus (wonBy w round c h) = entry := hentry
  have hhtu : (wonBy w round c h).htu = (match entry with
      | some x => tellWin x (leaveList round h)
      | none => h).htu := by
    rw [← hentry]
    rfl
  rw [hbus, hhtu]
  cases entry with
  | none => exact .inl ⟨rfl, fun _ hx => by cases hx⟩
  | some x =>
    have hc : c = some x := by
      split at hentry
      · exact hentry
      · cases hentry
    by_cases hk : x.kind = .grant
    · exact .inr ⟨x, hc, hk, by simp [tellWin, hk, Kind.isSlot, hleave]⟩
    · refine .inl ⟨?_, fun y hy => by cases hy; exact hk⟩
      dsimp only
      rw [tellWin, if_neg hk]
      split
      · split <;> exact hleave
      · exact hleave

/-- An arbitration is won in one of its rounds by a candidate of this station, or by another, or by nobody (R29). -/
theorem holdRounds_cases (pl nl : BitVec 16) (h : Hw) :
    holdRounds pl nl h = h ∨ ∃ w round c, holdRounds pl nl h = wonBy w round c h
      ∧ (c = priorityCandidate h ∨ c = normalCandidate h) := by
  unfold holdRounds
  split
  · exact .inr ⟨_, _, _, rfl, .inl rfl⟩
  · split
    · exact .inr ⟨_, _, _, rfl, .inr rfl⟩
    · exact .inl rfl

theorem meetTransaction_posted (u : Htu) : u.meetTransaction.posted = u.posted := by
  unfold Htu.meetTransaction
  split <;> rfl

/-- Every move of the home keeps the number of GRANTs posted. -/
theorem posted_kept : StrapKept fun h => h.htu.posted ≤ 8 where
  toTakeKept := posted_purge.take
  finished hp := posted_purge.finishPurge hp
  control _ _ hp := hp
  strapped _ hp := hp
  entered _ _ _ _ _ _ _ hp := hp
  reset _ _ := Nat.zero_le 8
  left _ := by
    simp only [ownLeave, raiseEvent_htu]
    exact Nat.zero_le 8
  gone _ hp := hp
  expired _ hp := by simpa using hp
  ticked hp := hp
  rounds {h} pl nl _ hp := by
    obtain he | ⟨w, round, c, he, -⟩ := holdRounds_cases pl nl h <;> rw [he]
    · exact hp
    · obtain ⟨hh, -⟩ | ⟨_, -, -, hh⟩ := wonBy_htu w round c h <;> rw [hh] <;> exact hp
  requested _ _ hp := by
    unfold readRequestPhase
    split
    · exact hp
    · split <;> exact hp
  observed _ hp := by
    unfold startObservation
    split
    · exact hp
    · split
      · dsimp only
        split
        · have hs := posted_purge.take.settleArrivals hp
          rwa [← meetTransaction_posted] at hs
        · exact hp
        · exact hp
      · exact hp
  observationClosed _ hp := by
    have hd := posted_purge.decided hp
    unfold closeObservation
    split
    · exact hp
    · split
      · dsimp only
        split
        · exact hp
        · unfold answerGrant
          split
          · split <;> exact hd
          · exact hd
      · exact hp
  responded _ hp := by
    unfold readResponsePhase
    split
    · split <;> exact hp
    · exact hp
  closed _ _ _ hp := hp
  answered o _ _ _ _ _ hg hp := by
    obtain ⟨-, hh, -⟩ := hg
    have hh : _ = _ := hh
    exact posted_purge.take.takeWaiting _ (posted_purge.answeredWork o (by rw [hh]; exact hp) fun d _ => by rw [hh]; exact hp)
  released _ _ _ _ _ _ _ _ hp := posted_purge.take.takeWaiting _ hp

/-- Every step keeps the counts within their ceilings. -/
theorem countLaw_step {s t : State} (hl : countLaw s.hw) (ht : step s = .next t) : countLaw t.hw := by
  obtain ⟨hp, ho, hq⟩ := hl
  exact ⟨posted_kept.step hp ht, outstanding_kept.step ho ht, pulses_kept.step hq ht⟩

end Sys2Proof.Machine
end

section
/-! The engagement of a home (R23), in the form that every move of the home keeps: `engagementLaw` but for the claims of
a home that has just become free, which it takes at once. -/

namespace Sys2Proof.Machine

/-! ### The claims of a home -/

/-- What stands among the values of a home alone, in a home state. -/
structure ClaimsStand (hs : HomeState) (t : Htu) : Prop where
  purging : t.purge.isSome = true → t.engaged = .purge
  deciding : t.decision.isSome = true → t.engaged = .transaction
  settled : t.engaged ≠ .free → t.arriving = []
  unarrived : .lockTransaction ∉ t.arriving
  once : .lockTransaction ∈ t.claims → t.claims.count .lockTransaction = 1
  expiry : expiryOnce t
  inactive : hs = .inactive → t.rebuildTimer = none ∧ .rebuildExpiry ∉ t.claims ++ t.arriving

namespace ClaimsStand

variable {hs : HomeState} {t : Htu}

theorem undecided (hp : ClaimsStand hs t) (ht : t.engaged ≠ .transaction) : t.decision = none := by
  by_contra hd
  exact ht (hp.deciding (Option.isSome_iff_ne_none.mpr hd))

theorem unpurged (hp : ClaimsStand hs t) (ht : t.engaged ≠ .purge) : t.purge = none := by
  by_contra hd
  exact ht (hp.purging (Option.isSome_iff_ne_none.mpr hd))

/-- The tables, and claims taken from the front, are nothing to the engagement; nor are the awaited set and a timer
that stops. -/
theorem of_sublist {u : Htu} (hp : ClaimsStand hs t) (he : u.engaged = t.engaged) (hg : u.purge = t.purge)
    (hd : u.decision = t.decision) (hc : u.claims.Sublist t.claims) (ha : u.arriving.Sublist t.arriving)
    (ht : t.rebuildTimer = none → u.rebuildTimer = none) : ClaimsStand hs u where
  purging := by rw [he, hg]; exact hp.purging
  deciding := by rw [he, hd]; exact hp.deciding
  settled hn := List.eq_nil_of_sublist_nil (hp.settled (he ▸ hn) ▸ ha)
  unarrived hm := hp.unarrived (ha.mem hm)
  once hm := by
    have h1 := hp.once (hc.mem hm)
    have h2 := hc.count_le Claim.lockTransaction
    have h3 := List.count_pos_iff.mpr hm
    omega
  expiry hm := ht (hp.expiry ((hc.append ha).mem hm))
  inactive hi := by
    obtain ⟨hi1, hi2⟩ := hp.inactive hi
    exact ⟨ht hi1, fun hm => hi2 ((hc.append ha).mem hm)⟩

theorem of_eq {u : Htu} (hp : ClaimsStand hs t) (he : u.engaged = t.engaged) (hg : u.purge = t.purge)
    (hd : u.decision = t.decision) (hc : u.claims = t.claims) (ha : u.arriving = t.arriving)
    (ht : u.rebuildTimer = t.rebuildTimer) : ClaimsStand hs u :=
  hp.of_sublist he hg hd (hc ▸ List.Sublist.refl _) (ha ▸ List.Sublist.refl _) (ht ▸ id)

/-- The home state alters, but not into INACTIVE. -/
theorem of_home {hs' : HomeState} (hp : ClaimsStand hs t) (hh : hs' = .inactive → hs = .inactive) :
    ClaimsStand hs' t where
  __ := hp
  inactive hi := hp.inactive (hh hi)

theorem receive {c : Claim} (hp : ClaimsStand hs t) (hc : c ≠ .lockTransaction) (hx : c ≠ .rebuildExpiry) :
    ClaimsStand hs (t.receive c) := by
  have hm : (Claim.rebuildExpiry ∈ (t.receive c).claims ++ (t.receive c).arriving)
      → .rebuildExpiry ∈ t.claims ++ t.arriving := by
    unfold Htu.receive
    split <;> simp [hx.symm, or_comm]
  refine ⟨by simpa using hp.purging, by simpa using hp.deciding, fun hn => ?_, ?_, ?_, fun hr => ?_, fun hi => ?_⟩
  · rw [receive_engaged] at hn
    rw [receive_atEngaged hn]
    exact hp.settled hn
  · unfold Htu.receive
    split <;> simp [hp.unarrived, hc.symm]
  · unfold Htu.receive
    split
    · exact hp.once
    · simpa [List.count_append, List.count_singleton, hc, hc.symm] using hp.once
  · rw [receive_rebuildTimer]
    exact hp.expiry (hm hr)
  · rw [receive_rebuildTimer]
    exact ⟨(hp.inactive hi).1, fun hr => (hp.inactive hi).2 (hm hr)⟩

/-- The home engaged, by what its purge and its decision ask for (R23). -/
theorem engage {e : Engagement} (hp : ClaimsStand hs t) (hg : t.purge.isSome = true → e = .purge)
    (hd : t.decision.isSome = true → e = .transaction) : ClaimsStand hs (t.engage e) where
  purging := hg
  deciding := hd
  settled _ := rfl
  unarrived := List.not_mem_nil
  once hm := by
    rw [engage_claims, List.mem_append] at hm
    rw [engage_claims, List.count_append, List.count_eq_zero_of_not_mem hp.unarrived]
    exact hp.once (hm.resolve_right hp.unarrived)
  expiry hm := hp.expiry (by simpa using hm)
  inactive hi := by simpa using hp.inactive hi

/-- A lock transaction waits at a home where none does (R34). -/
theorem transactionWaits (hp : ClaimsStand hs t) (hl : .lockTransaction ∉ t.claims) :
    ClaimsStand hs { t with claims := t.claims ++ [.lockTransaction] } where
  __ := hp
  once _ := by simp [List.count_append, List.count_eq_zero_of_not_mem hl]
  expiry hm := hp.expiry (by simpa using hm)
  inactive hi := by simpa using hp.inactive hi

theorem freed (hp : ClaimsStand hs t) (hg : t.purge = none) : ClaimsStand hs t.freed where
  __ := hp
  purging hc := by simp [hg] at hc
  deciding hc := by simp at hc
  settled hn := absurd rfl hn

theorem decide (hp : ClaimsStand hs t) (ht : t.engaged = .transaction) (d : Option Decision) :
    ClaimsStand hs { t with decision := d } where
  __ := hp
  deciding _ := ht

theorem startPurge (hp : ClaimsStand hs t) (ht : t.engaged = .free) (ws : List Waiter) (es : List Holder) (g : Purge) :
    ClaimsStand hs { t.engage .purge with waiters := ws, holders := es, purge := some g } where
  __ := hp.engage (e := .purge) (fun _ => rfl) fun hd => by
    rw [hp.undecided (by simp [ht])] at hd
    cases hd
  purging _ := rfl

theorem endPurge (hp : ClaimsStand hs t) (hg : t.purge.isSome = true) :
    ClaimsStand hs { t with purge := none, engaged := .free } where
  __ := hp
  purging hc := by simp at hc
  deciding hd := by
    rw [hp.undecided (by simp [hp.purging hg])] at hd
    cases hd
  settled hn := absurd rfl hn

theorem entered (hp : ClaimsStand .inactive t) (hs : HomeState) (hs' : hs ≠ .inactive) (a : BitVec 16)
    (r : Option Nat) : ClaimsStand hs (t.entered a r) where
  __ := hp
  expiry hm := absurd hm (hp.inactive rfl).2
  inactive hi := absurd hi hs'

theorem expired (hp : ClaimsStand hs t) (ht : t.rebuildTimer.isSome = true) :
    ClaimsStand hs (({ t with rebuildTimer := none } : Htu).receive .rebuildExpiry) := by
  have hi : hs ≠ .inactive := fun hi => by simp [(hp.inactive hi).1] at ht
  have hr : ({ t with rebuildTimer := none } : Htu).receive .rebuildExpiry
      = { t.receive .rebuildExpiry with rebuildTimer := none } := by
    unfold Htu.receive
    split <;> rfl
  rw [hr]
  refine ⟨by simpa using hp.purging, by simpa using hp.deciding, fun hn => ?_, ?_, ?_, fun _ => rfl,
    fun hc => absurd hc hi⟩
  · rw [receive_engaged] at hn
    simpa [receive_atEngaged hn] using hp.settled hn
  · unfold Htu.receive
    split <;> simp [hp.unarrived]
  · unfold Htu.receive
    split
    · exact hp.once
    · simpa [List.count_append] using hp.once

theorem reset (hs : HomeState) : ClaimsStand hs .reset where
  purging hc := by cases hc
  deciding hc := by cases hc
  settled hn := absurd rfl hn
  unarrived := List.not_mem_nil
  once hc := by cases hc
  expiry _ := rfl
  inactive _ := ⟨rfl, List.not_mem_nil⟩

end ClaimsStand

/-! ### The open record -/

/-- What stands in the record and the normal list alone. -/
structure RecordStands (l : Lbc) : Prop where
  responder : ∀ r, l.record = some r → r.role = .responder → r.phase.decided = true
  observer : ∀ r, l.record = some r → r.role = .observer → r.entry = none ∧ r.lrsp = false ∧ r.lstall = false
  kinds : ∀ r t, l.record = some r → r.role = .responder → recordRequest r = some t →
    t.kind.isLock = true ∨ t.kind = .grant
  plain : ∀ t ∈ l.normal, t.kind ≠ .grant

namespace RecordStands

variable {l : Lbc}

theorem of_eq {m : Lbc} (hp : RecordStands l) (hr : m.record = l.record)
    (hn : ∀ x ∈ m.normal, x ∈ l.normal ∨ x.kind ≠ .grant) : RecordStands m where
  responder r h := hp.responder r (hr ▸ h)
  observer r h := hp.observer r (hr ▸ h)
  kinds r t h := hp.kinds r t (hr ▸ h)
  plain x hx := (hn x hx).elim (hp.plain x) id

theorem closed (hp : RecordStands l) : RecordStands { l with record := none } where
  __ := hp
  responder _ h := by cases h
  observer _ h := by cases h
  kinds _ _ h := by cases h

/-- The record goes on with its role. -/
theorem goesOn {r : TxRecord} {r' : TxRecord} (hp : RecordStands l) (hr : l.record = some r)
    (hrole : r'.role = r.role) (hd : r.role = .responder → r'.phase.decided = true)
    (hl : r'.role = .observer → r'.entry = r.entry ∧ r'.lrsp = r.lrsp ∧ (r'.lstall = r.lstall ∨ r'.lstall = false))
    (hq : r.role = .responder → recordRequest r' = recordRequest r) : RecordStands { l with record := some r' } where
  responder x hx hx' := by
    cases Option.some.inj hx
    exact hd (hrole ▸ hx')
  observer x hx hx' := by
    cases Option.some.inj hx
    obtain ⟨he, hs, hst⟩ := hl hx'
    obtain ⟨he', hs', hst'⟩ := hp.observer r hr (hrole ▸ hx')
    exact ⟨he.trans he', hs.trans hs', hst.elim (·.trans hst') id⟩
  kinds x t hx hx' ht := by
    cases Option.some.inj hx
    rw [hrole] at hx'
    exact hp.kinds r t hr hx' (hq hx' ▸ ht)
  plain := hp.plain

end RecordStands

/-! ### The home and the record -/

/-- What ties a home's engagement to the open record. -/
structure Linked (h : Hw) : Prop where
  transacting : h.htu.engaged = .transaction → answering h BusPhase.decided
  waiting : .lockTransaction ∈ h.htu.claims → h.htu.engaged ≠ .transaction ∧ answering h (· = .observing)
    ∧ ∀ r, h.lbc.record = some r → r.lstall = true
  reached : ∀ r t, h.lbc.record = some r → r.role = .responder → recordRequest r = some t → t.kind.isLock = true →
    .lockTransaction ∈ h.htu.claims ∨ h.htu.engaged = .transaction
  granting : ∀ r t, h.lbc.record = some r → r.role = .initiator → r.entry = some t → t.kind = .grant →
    h.htu.engaged = .grant

namespace Linked

variable {h t : Hw}

theorem of_iff (hp : Linked h) (hr : t.lbc.record = h.lbc.record)
    (ht : t.htu.engaged = .transaction ↔ h.htu.engaged = .transaction)
    (hg : t.htu.engaged = .grant ↔ h.htu.engaged = .grant)
    (hl : .lockTransaction ∈ t.htu.claims ↔ .lockTransaction ∈ h.htu.claims) : Linked t := by
  have ha : ∀ p, answering t p ↔ answering h p := fun p => by unfold answering; rw [hr]
  refine ⟨fun he => ?_, fun hm => ?_, fun r x hx => ?_, fun r x hx => ?_⟩
  · exact (ha _).mpr (hp.transacting (ht.mp he))
  · obtain ⟨h1, h2, h3⟩ := hp.waiting (hl.mp hm)
    exact ⟨fun he => h1 (ht.mp he), (ha _).mpr h2, fun r hx => h3 r (hr ▸ hx)⟩
  · rw [ht, hl]
    exact hp.reached r x (hr ▸ hx)
  · rw [hg]
    exact hp.granting r x (hr ▸ hx)

theorem of_eq (hp : Linked h) (hr : t.lbc.record = h.lbc.record) (he : t.htu.engaged = h.htu.engaged)
    (hl : .lockTransaction ∈ t.htu.claims ↔ .lockTransaction ∈ h.htu.claims) : Linked t :=
  hp.of_iff hr (by rw [he]) (by rw [he]) hl

/-- Without a record the home is engaged by no transaction, and none waits. -/
theorem unrecorded (hp : Linked h) (hr : h.lbc.record = none) :
    h.htu.engaged ≠ .transaction ∧ .lockTransaction ∉ h.htu.claims := by
  have hn : ∀ p, ¬answering h p := fun p ⟨r, t, hx, _⟩ => by rw [hr] at hx; cases hx
  exact ⟨fun he => hn _ (hp.transacting he), fun hm => hn _ (hp.waiting hm).2.1⟩

theorem of_unrecorded (hr : h.lbc.record = none) (ht : h.htu.engaged ≠ .transaction)
    (hl : .lockTransaction ∉ h.htu.claims) : Linked h where
  transacting he := absurd he ht
  waiting hm := absurd hm hl
  reached r t hx := by rw [hr] at hx; cases hx
  granting r t hx := by rw [hr] at hx; cases hx

/-- A record this station does not answer ties nothing to the home but the own GRANT. -/
theorem of_unanswered {r : TxRecord} (hr : h.lbc.record = some r) (hrole : r.role ≠ .responder)
    (ht : h.htu.engaged ≠ .transaction) (hl : .lockTransaction ∉ h.htu.claims)
    (hg : ∀ t, r.role = .initiator → r.entry = some t → t.kind = .grant → h.htu.engaged = .grant) : Linked h where
  transacting he := absurd he ht
  waiting hm := absurd hm hl
  reached x t hx hx' := by
    obtain rfl := Option.some.inj (hr.symm.trans hx)
    exact absurd hx' hrole
  granting x t hx := by
    obtain rfl := Option.some.inj (hr.symm.trans hx)
    exact hg t

/-- Where this station does not answer a transaction, the home is engaged by none, and none waits. -/
theorem unanswered {r : TxRecord} (hp : Linked h) (hr : h.lbc.record = some r) (hrole : r.role ≠ .responder) :
    h.htu.engaged ≠ .transaction ∧ .lockTransaction ∉ h.htu.claims := by
  have hn : ∀ p, ¬answering h p := fun p ⟨x, t, hx, hx', _⟩ => by
    obtain rfl := Option.some.inj (hr.symm.trans hx)
    exact hrole hx'
  exact ⟨fun he => hn _ (hp.transacting he), fun hm => hn _ (hp.waiting hm).2.1⟩

/-- No transaction waits in a phase that is not open for it. -/
theorem notWaiting {r : TxRecord} (hp : Linked h) (hr : h.lbc.record = some r) (hph : r.phase ≠ .observing) :
    .lockTransaction ∉ h.htu.claims := fun hm => by
  obtain ⟨x, t, hx, -, hx', -⟩ := (hp.waiting hm).2.1
  obtain rfl := Option.some.inj (hr.symm.trans hx)
  exact hph (by simpa using hx')

end Linked

/-! ### The three together -/

/-- The engagement of a home, but for the claims of a free one. -/
structure Standing (h : Hw) : Prop where
  claims : ClaimsStand h.home h.htu
  record : RecordStands h.lbc
  linked : Linked h

/-- A home engaged by nothing on the lockbus has no decision standing. -/
theorem Standing.undecided {h : Hw} (hp : Standing h) (ho : offBus h) : h.htu.decision = none := by
  refine hp.claims.undecided ?_
  obtain ho | ho | ho := ho
  · simp [ho]
  · simp [hp.claims.purging ho]
  · exact (hp.linked.unrecorded ho).1

theorem engagementLaw_iff (h : Hw) :
    engagementLaw h ↔ Standing h ∧ (h.htu.engaged ≠ .free ∨ h.htu.claims = []) := by
  constructor
  · rintro ⟨c1, c2, c3, c4, c5, c6, c7, c8, c9, c10, c11, c12, c13, c14⟩
    refine ⟨⟨⟨c1, c2, c5, c6, fun hm => (c7 hm).2.2.1, c13, c14⟩, ⟨c8, c9, fun r t hr hr' ht => (c10 r t hr hr' ht).1, c12⟩,
      ⟨c3, fun hm => ?_, fun r t hr hr' ht => (c10 r t hr hr' ht).2, c11⟩⟩, ?_⟩
    · obtain ⟨h1, h2, -, h4⟩ := c7 hm
      exact ⟨h1, h2, h4⟩
    · by_cases he : h.htu.engaged = .free
      · exact .inr (c4 he)
      · exact .inl he
  · rintro ⟨⟨hc, hr, hl⟩, hf⟩
    refine ⟨hc.purging, hc.deciding, hl.transacting, fun he => hf.resolve_left (not_not.mpr he), hc.settled,
      hc.unarrived, fun hm => ?_, hr.responder, hr.observer,
      fun r t hx hx' ht => ⟨hr.kinds r t hx hx' ht, hl.reached r t hx hx' ht⟩, hl.granting, hr.plain, hc.expiry,
      hc.inactive⟩
    obtain ⟨h1, h2, h3⟩ := hl.waiting hm
    exact ⟨h1, h2, hc.once hm, h3⟩

end Sys2Proof.Machine
end

section
/-! What the phases on the lockbus do to the standing of a home (R23, R33, R34). -/

namespace Sys2Proof.Machine

/-- The station at which a record opens does not answer its transaction yet (R31). -/
theorem openedRecord_unanswered (w : StationId) (round : Round) (e : Option Transaction) :
    (openedRecord w round e).role ≠ .responder := by cases e <;> simp [openedRecord]

theorem openedRecord_observer {w : StationId} {round : Round} {e : Option Transaction}
    (he : (openedRecord w round e).role = .observer) : (openedRecord w round e).entry = none := by
  cases e with
  | none => rfl
  | some x => cases he

namespace Standing

variable {h t : Hw}

/-- Nothing of the engagement alters but the claims that wait, and none of them is a lock transaction. -/
theorem keeps (hp : Standing h) (hc : ClaimsStand t.home t.htu) (hr : t.lbc.record = h.lbc.record)
    (hn : ∀ x ∈ t.lbc.normal, x ∈ h.lbc.normal ∨ x.kind ≠ .grant) (he : t.htu.engaged = h.htu.engaged)
    (hl : .lockTransaction ∈ t.htu.claims ↔ .lockTransaction ∈ h.htu.claims) : Standing t :=
  ⟨hc, hp.record.of_eq hr hn, hp.linked.of_eq hr he hl⟩

theorem of_htu {u : Htu} (hp : Standing h) (hc : ClaimsStand h.home u) (he : u.engaged = h.htu.engaged)
    (hl : .lockTransaction ∈ u.claims ↔ .lockTransaction ∈ h.htu.claims) : Standing (h.setHtu u) :=
  hp.keeps hc rfl (fun _ => .inl) he hl

/-- Neither the claims nor what engages the home alters. -/
theorem of_eq {u : Htu} (hp : Standing h) (he : u.engaged = h.htu.engaged) (hg : u.purge = h.htu.purge)
    (hd : u.decision = h.htu.decision) (hc : u.claims = h.htu.claims) (ha : u.arriving = h.htu.arriving)
    (ht : u.rebuildTimer = h.htu.rebuildTimer) : Standing (h.setHtu u) :=
  hp.of_htu (hp.claims.of_eq he hg hd hc ha ht) he (by rw [hc])

theorem quiet (hq : Quiet h t) (hp : Standing h) : Standing t := by
  obtain ⟨hs, hh, hr, hn⟩ := hq
  have hho : t.home = h.home := congrArg (fun c => c.station.home) hs
  exact hp.keeps (by rw [hho, hh]; exact hp.claims) hr hn (by rw [hh]) (by rw [hh])

theorem claimed {c : Claim} (hc : c ≠ .lockTransaction) (hx : c ≠ .rebuildExpiry) (hp : Standing h) :
    Standing (addClaim c h) := by
  refine hp.of_htu (hp.claims.receive hc hx) (receive_engaged c _) ?_
  unfold Htu.receive
  split <;> simp [hc.symm]

/-- A purge of a free home starts. -/
theorem startPurge (hf : h.htu.engaged = .free) (ws : List Waiter) (es : List Holder) (g : Purge) (hp : Standing h) :
    Standing (h.setHtu { h.htu.engage .purge with waiters := ws, holders := es, purge := some g }) :=
  ⟨hp.claims.startPurge hf ws es g, hp.record,
    hp.linked.of_iff rfl (by simp [hf]) (by simp [hf]) (by simp [hp.claims.unarrived])⟩

theorem endPurge {p : Purge} (hg : h.htu.purge = some p) (hp : Standing h) :
    Standing (h.setHtu { h.htu with purge := none, engaged := .free }) := by
  have he := hp.claims.purging (by simp [hg])
  exact ⟨hp.claims.endPurge (by simp [hg]), hp.record, hp.linked.of_iff rfl (by simp [he]) (by simp [he]) Iff.rfl⟩

/-- The home leaves the rebuild. -/
theorem served {c : Scu} (a : BitVec 16) (hc : c.station.home = .serving)
    (hp : Standing h) :
    Standing { h with htu := { h.htu with awaited := a, rebuildTimer := none }, scu := c } := by
  refine hp.keeps ?_ rfl (fun _ => .inl) rfl Iff.rfl
  have hu : ClaimsStand h.home { h.htu with awaited := a, rebuildTimer := none } :=
    hp.claims.of_sublist rfl rfl rfl (.refl _) (.refl _) fun _ => rfl
  exact hu.of_home fun hi => absurd (hc.symm.trans hi) (by simp)

/-! ### A transaction is decided -/

/-- The transaction that engages the home is decided (R51). -/
theorem decided (hp : Standing h) : Standing (takeEngaged h) := by
  obtain he | ⟨q, -, het, -, -, -, he⟩ := takeEngaged_cases h <;> rw [he]
  · exact hp
  · unfold recordDecision setStall
    dsimp only
    obtain ⟨r, x, hr, hrole, hph, hx, hk⟩ := hp.linked.transacting het
    have hrec : (h.lbc.record.map fun r => { r with lstall := false }) = some { r with lstall := false } := by rw [hr]; rfl
    refine ⟨hp.claims.decide het _, ?_, ?_⟩
    · have hgo := hp.record.goesOn (r' := { r with lstall := false }) hr rfl (fun _ => hph)
        (fun _ => ⟨rfl, rfl, .inr rfl⟩) fun _ => rfl
      exact hgo.of_eq hrec fun _ => .inl
    · refine ⟨fun _ => ⟨_, x, hrec, hrole, hph, hx, hk⟩, fun hm => absurd het (hp.linked.waiting hm).1,
        fun _ _ _ _ _ _ => .inr het, fun y z hy hy' _ _ => ?_⟩
      obtain rfl := Option.some.inj (hrec.symm.trans hy)
      rw [show r.role = .initiator from hy'] at hrole
      cases hrole

/-- A lock transaction that waited engages the free home (R51). -/
theorem met {rest : List Claim} (hf : h.htu.engaged = .free) (hc : h.htu.claims = .lockTransaction :: rest)
    (hp : Standing h) : Standing (takeTransaction (h.setHtu { h.htu with claims := rest })) := by
  have hm : Claim.lockTransaction ∈ h.htu.claims := by simp [hc]
  have hrest : Claim.lockTransaction ∉ rest := by
    have h1 := hp.claims.once hm
    rw [hc, List.count_cons_self] at h1
    exact List.count_eq_zero.mp (by omega)
  obtain ⟨-, ⟨r, x, hr, hrole, hph, hx, hk⟩, -⟩ := hp.linked.waiting hm
  have hph : r.phase = .observing := by simpa using hph
  have hsub : ClaimsStand h.home { h.htu with claims := rest } :=
    hp.claims.of_sublist rfl rfl rfl (by simp [hc]) (.refl _) id
  refine decided ⟨hsub.engage (fun hg => ?_) (fun _ => rfl), hp.record, ⟨fun _ => ?_, fun hm => ?_,
    fun _ _ _ _ _ _ => .inr rfl, fun y z hy hy' _ _ => ?_⟩⟩
  · rw [show h.htu.purge = none from hp.claims.unpurged (by simp [hf])] at hg
    cases hg
  · exact ⟨r, x, hr, hrole, by rw [hph]; rfl, hx, hk⟩
  · have hm : Claim.lockTransaction ∈ rest ++ h.htu.arriving := hm
    exact absurd ((List.mem_append.mp hm).resolve_left hrest) hp.claims.unarrived
  · obtain rfl := Option.some.inj (hr.symm.trans hy)
    rw [hy'] at hrole
    cases hrole

/-! ### The phases -/

/-- An arbitration is won (R31); a GRANT among the candidates is admissible only where no purge is in progress
(R28). -/
theorem won {w : StationId} {round : Round} {c : Option Transaction}
    (hc : ∀ x, c = some x → x.kind = .grant → h.htu.purge = none) (hr : h.lbc.record = none) (hp : Standing h) :
    Standing (wonBy w round c h) := by
  have hho : (wonBy w round c h).home = h.home := congrArg (fun c => c.station.home) (wonBy_scu w round c h)
  obtain ⟨hnorm, -, -⟩ := wonBy_lbc w round c h
  obtain ⟨ht, hl⟩ := hp.linked.unrecorded hr
  have hrec : (wonBy w round c h).lbc.record = some (openedRecord w round (if w = h.id then c else none)) := rfl
  have hrole := openedRecord_unanswered w round (if w = h.id then c else none)
  have hstands : RecordStands (wonBy w round c h).lbc := by
    refine ⟨fun r hx hx' => ?_, fun r hx hx' => ?_, fun r x hx hx' => ?_, fun x hx => hp.record.plain x (hnorm x hx)⟩
    · obtain rfl := Option.some.inj (hrec.symm.trans hx)
      exact absurd hx' hrole
    · obtain rfl := Option.some.inj (hrec.symm.trans hx)
      exact ⟨openedRecord_observer hx', rfl, rfl⟩
    · obtain rfl := Option.some.inj (hrec.symm.trans hx)
      exact absurd hx' hrole
  obtain ⟨hh, hk⟩ | ⟨x, hx, hk, hh⟩ := wonBy_htu w round c h
  · refine ⟨by rw [hho, hh]; exact hp.claims, hstands, Linked.of_unanswered hrec hrole (by rwa [hh]) (by rwa [hh])
      fun x _ hx hxk => absurd hxk (hk x ?_)⟩
    rw [entryOnBus, hrec]
    exact hx
  · have hg := hc x hx hk
    refine ⟨?_, hstands, Linked.of_unanswered hrec hrole (by simp [hh]) ?_ fun _ _ _ _ => by simp [hh]⟩
    · rw [hho, hh]
      refine hp.claims.engage (fun hc => ?_) (fun hc => ?_)
      · rw [hg] at hc
        cases hc
      · rw [hp.claims.undecided ht] at hc
        cases hc
    · rw [hh, engage_claims, List.mem_append]
      exact not_or.mpr ⟨hl, hp.claims.unarrived⟩

theorem rounds (pl nl : BitVec 16) (hr : h.lbc.record = none) (hp : Standing h) : Standing (holdRounds pl nl h) := by
  obtain he | ⟨w, round, c, he, hc⟩ := holdRounds_cases pl nl h <;> rw [he]
  · exact hp
  · refine hp.won (fun x hx hk => ?_) hr
    obtain hc | hc := hc
    · rw [hc] at hx
      unfold priorityCandidate at hx
      split at hx
      · have := List.find?_some hx
        simpa [admissible, hk] using this
      · cases hx
    · rw [hc] at hx
      unfold normalCandidate at hx
      split at hx
      · exact absurd hk (hp.record.plain x (List.mem_of_mem_head? hx))
      · cases hx

/-- A record that this station does not answer goes on, in its role. -/
theorem unansweredGoesOn {r r' : TxRecord} (hr : h.lbc.record = some r) (hrole : r.role ≠ .responder)
    (hrole' : r'.role = r.role) (he : r'.entry = r.entry) (hl : r'.lrsp = r.lrsp) (hs : r'.lstall = r.lstall)
    (hp : Standing h) : Standing (setRecord r' h) := by
  obtain ⟨ht, hm⟩ := hp.linked.unanswered hr hrole
  refine ⟨hp.claims, ?_, Linked.of_unanswered (r := r') rfl (hrole' ▸ hrole) ht hm ?_⟩
  · exact hp.record.goesOn hr hrole' (fun hc => absurd hc hrole) (fun _ => ⟨he, hl, .inl hs⟩)
      fun hc => absurd hc hrole
  · rw [hrole', he]
    exact fun x => hp.linked.granting r x hr

/-- A record this station answers is past its request phase. -/
theorem unanswered_of_phase {r : TxRecord} (hp : Standing h) (hr : h.lbc.record = some r)
    (hph : r.phase.decided = false) : r.role ≠ .responder := fun hc => by
  rw [hp.record.responder r hr hc] at hph
  cases hph

theorem requested (a b : Lines) (hp : Standing h) : Standing (readRequestPhase a b h) := by
  unfold readRequestPhase
  split
  · exact hp
  · next r hr =>
    split
    · next hph =>
      exact hp.unansweredGoesOn hr (hp.unanswered_of_phase hr (by rw [hph]; rfl)) rfl rfl rfl rfl
    · exact hp

end Standing

/-- A station that responds as the home has a lock transaction before it. -/
theorem isLock_of_responds_home {h : Hw} {r : TxRecord} (hr : responds h r = .home) :
    ∃ x, recordRequest r = some x ∧ x.kind.isLock = true := by
  unfold responds at hr
  split at hr
  · cases hr
  · next x hx =>
    split at hr
    · cases hr
    · split at hr
      · next hk => exact ⟨x, hx, hk.1⟩
      · split at hr <;> cases hr

/-- A station that responds as the target has a GRANT before it. -/
theorem grant_of_responds_target {h : Hw} {r : TxRecord} (hr : responds h r = .target) :
    ∃ x, recordRequest r = some x ∧ x.kind = .grant := by
  unfold responds at hr
  split at hr
  · cases hr
  · next x hx =>
    split at hr
    · cases hr
    · split at hr
      · cases hr
      · split at hr
        · next hk => exact ⟨x, hx, hk.1⟩
        · cases hr

namespace Standing

variable {h : Hw}

/-- A lock transaction reaches its home, which this station is: the home answers it (R33, R34). -/
theorem reached {r r' : TxRecord} {x : Transaction} (hr : h.lbc.record = some r) (hrole : r.role ≠ .responder)
    (hrole' : r'.role = .responder) (hph : r'.phase = .observing) (hx : recordRequest r' = some x)
    (hk : x.kind.isLock = true) (hs : h.htu.engaged ≠ .free → r'.lstall = true) (hp : Standing h) :
    Standing (setRecord r' (h.setHtu h.htu.meetTransaction)) := by
  obtain ⟨ht, hl⟩ := hp.linked.unanswered hr hrole
  have hrec : RecordStands { h.lbc with record := some r' } := by
    refine ⟨fun y hy _ => ?_, fun y hy hy' => ?_, fun y z hy _ hz => ?_, hp.record.plain⟩ <;>
      obtain rfl := Option.some.inj hy
    · rw [hph]
      rfl
    · rw [hrole'] at hy'
      cases hy'
    · obtain rfl := Option.some.inj (hx.symm.trans hz)
      exact .inl hk
  have hgrant : ∀ y z, some r' = some y → y.role = .initiator → y.entry = some z → z.kind = .grant →
      h.htu.meetTransaction.engaged = .grant := fun y z hy hy' _ _ => by
    obtain rfl := Option.some.inj hy
    rw [hrole'] at hy'
    cases hy'
  by_cases hf : h.htu.engaged = .free
  · have hm : h.htu.meetTransaction = h.htu.engage .transaction := if_pos hf
    rw [hm] at hgrant ⊢
    refine ⟨hp.claims.engage (fun hg => ?_) fun _ => rfl, hrec, ⟨fun _ => ⟨r', x, rfl, hrole', by rw [hph]; rfl, hx, hk⟩,
      fun hm => ?_, fun _ _ _ _ _ _ => .inr rfl, hgrant⟩⟩
    · rw [hp.claims.unpurged (by simp [hf])] at hg
      cases hg
    · exact absurd hm (by simp [setRecord, hl, hp.claims.unarrived])
  · have hm : h.htu.meetTransaction = { h.htu with claims := h.htu.claims ++ [.lockTransaction] } := if_neg hf
    rw [hm] at hgrant ⊢
    refine ⟨hp.claims.transactionWaits hl, hrec, ⟨fun hc => absurd hc ht, fun _ => ⟨ht,
      ⟨r', x, rfl, hrole', by simp [hph], hx, hk⟩, fun y hy => ?_⟩, fun _ _ _ _ _ _ => .inl (by simp [setRecord]),
      hgrant⟩⟩
    obtain rfl := Option.some.inj hy
    exact hs hf

/-- The target of a GRANT answers it (R33). -/
theorem targeted {r r' : TxRecord} {x : Transaction} (hr : h.lbc.record = some r) (hrole : r.role ≠ .responder)
    (hrole' : r'.role = .responder) (hph : r'.phase = .observing) (hx : recordRequest r' = some x)
    (hk : x.kind = .grant) (hp : Standing h) : Standing (setRecord r' h) := by
  obtain ⟨ht, hl⟩ := hp.linked.unanswered hr hrole
  refine ⟨hp.claims, ⟨fun y hy _ => ?_, fun y hy hy' => ?_, fun y z hy _ hz => ?_, hp.record.plain⟩,
    ⟨fun hc => absurd hc ht, fun hm => absurd hm hl, fun y z hy _ hz hzk => ?_, fun y z hy hy' _ _ => ?_⟩⟩ <;>
    obtain rfl := Option.some.inj hy
  · rw [hph]
    rfl
  · rw [hrole'] at hy'
    cases hy'
  · obtain rfl := Option.some.inj (hx.symm.trans hz)
    exact .inr hk
  · obtain rfl := Option.some.inj (hx.symm.trans hz)
    rw [hk] at hzk
    cases hzk
  · rw [hrole'] at hy'
    cases hy'

/-- A record this station may answer goes on from a phase that is open for a waiting transaction or has passed, without
one waiting. -/
theorem goesOn {r r' : TxRecord} (hr : h.lbc.record = some r) (hrole : r'.role = r.role) (he : r'.entry = r.entry)
    (hq : recordRequest r' = recordRequest r) (hph : r'.phase.decided = true) (hls : r'.lrsp = r.lrsp)
    (hs : r'.lstall = r.lstall) (hw : .lockTransaction ∈ h.htu.claims → r'.phase = .observing) (hp : Standing h) :
    Standing (setRecord r' h) := by
  have answers : ∀ p, (∀ q, answering h q → p r'.phase = true → answering (setRecord r' h) p) :=
    fun p q ⟨y, x, hy, hy', _, hx, hk⟩ hpp => by
      obtain rfl := Option.some.inj (hr.symm.trans hy)
      exact ⟨r', x, rfl, hrole.trans hy', hpp, hq.trans hx, hk⟩
  refine ⟨hp.claims, hp.record.goesOn hr hrole (fun _ => hph) (fun _ => ⟨he, hls, .inl hs⟩) fun _ => hq,
    ⟨fun ht => ?_, fun hm => ?_, fun y x hy hy' hx hk => ?_, fun y x hy hy' hx hk => ?_⟩⟩
  · exact answers _ _ (hp.linked.transacting ht) hph
  · obtain ⟨h1, h2, h3⟩ := hp.linked.waiting hm
    refine ⟨h1, answers _ _ h2 (by simp [hw hm]), fun y hy => ?_⟩
    obtain rfl := Option.some.inj hy
    exact hs.trans (h3 r hr)
  · obtain rfl := Option.some.inj hy
    exact hp.linked.reached r x hr (hrole ▸ hy') (hq ▸ hx) hk
  · obtain rfl := Option.some.inj hy
    exact hp.linked.granting r x hr (hrole ▸ hy') (he ▸ hx) hk

theorem responded (l : Lines) (hp : Standing h) : Standing (readResponsePhase l h) := by
  unfold readResponsePhase
  split
  · next r x hr _ =>
    split
    · next hph =>
      exact hp.goesOn hr rfl rfl rfl rfl rfl rfl fun hm =>
        absurd hm (hp.linked.notWaiting hr (by simp [hph]))
    · exact hp
  · exact hp

/-- The record closes, but at a home that answers a lock transaction (R41). -/
theorem closed {r : TxRecord} (hr : h.lbc.record = some r) (hph : r.phase = .completion)
    (hrole : r.role = .responder → ∀ x, recordRequest r = some x → x.kind = .grant) (hp : Standing h) :
    Standing (closeRecord h) := by
  refine ⟨hp.claims, hp.record.closed, Linked.of_unrecorded rfl (fun ht => ?_) ?_⟩
  · obtain ⟨y, x, hy, hy', -, hx, hk⟩ := hp.linked.transacting ht
    obtain rfl := Option.some.inj (hr.symm.trans hy)
    rw [hrole hy' x hx] at hk
    cases hk
  · exact hp.linked.notWaiting hr (by simp [hph])

/-- The home that answered is freed at the completion (R24). -/
theorem answered {g : Hw} {r : TxRecord} {x : Transaction} (hr : h.lbc.record = some r) (hph : r.phase = .completion)
    (hrole : r.role = .responder) (hx : recordRequest r = some x) (hk : x.kind ≠ .grant)
    (hg : HomeFrame (closeRecord h) g) (hp : Standing h) : Standing (g.setHtu g.htu.freed) := by
  obtain ⟨hs, hh, hrec, hn⟩ := hg
  have hh : g.htu = h.htu := hh
  have hl := hp.linked.notWaiting hr (by simp [hph])
  have hlock := (hp.record.kinds r x hr hrole hx).resolve_right hk
  have ht := (hp.linked.reached r x hr hrole hx hlock).resolve_left hl
  refine ⟨?_, hp.record.closed.of_eq hrec fun y hy => .inl (hn y hy),
    Linked.of_unrecorded hrec (fun hc => by simp [Hw.setHtu] at hc) ?_⟩
  · rw [hh]
    have hc := hp.claims.freed (hp.claims.unpurged (by simp [ht]))
    exact hc.of_home fun hi => (show h.home = g.home from hs.1.symm).trans hi
  · rw [hh]
    exact hl

/-- The home is freed at the completion of its GRANT (R23). -/
theorem released {g : Hw} {r : TxRecord} {x : Transaction} {cs : List Claim} (hr : h.lbc.record = some r)
    (hrole : r.role = .initiator) (hx : r.entry = some x) (hk : x.kind = .grant) (hp : Standing h)
    (he : g.htu.engaged = h.htu.engaged) (hn : g.lbc.record = none)
    (hcs : ∀ c ∈ cs, c ≠ .lockTransaction ∧ c ≠ .rebuildExpiry) (hg : Standing g) :
    Standing (g.setHtu { g.htu.freed with claims := g.htu.claims ++ cs }) := by
  have hgrant : g.htu.engaged = .grant := he.trans (hp.linked.granting r x hr hrole hx hk)
  have hl := (hg.linked.unrecorded hn).2
  have ha : g.htu.arriving = [] := hg.claims.settled (by simp [hgrant])
  have hlc : Claim.lockTransaction ∉ g.htu.claims ++ cs := by
    rw [List.mem_append]
    exact not_or.mpr ⟨hl, fun hm => (hcs _ hm).1 rfl⟩
  have hxc : Claim.rebuildExpiry ∈ (g.htu.claims ++ cs) ++ g.htu.arriving → .rebuildExpiry ∈ g.htu.claims ++ g.htu.arriving := by
    rw [ha, List.append_nil, List.append_nil, List.mem_append]
    exact fun hm => hm.resolve_right fun hm => (hcs _ hm).2 rfl
  refine ⟨?_, hg.record, Linked.of_unrecorded hn (fun hc => by simp [Hw.setHtu] at hc) hlc⟩
  have hc := hg.claims.freed (hg.claims.unpurged (by simp [hgrant]))
  exact
    { hc with
      once := fun hm => absurd hm hlc
      expiry := fun hm => hg.claims.expiry (hxc hm)
      inactive := fun hi => ⟨(hg.claims.inactive hi).1, fun hm => (hg.claims.inactive hi).2 (hxc hm)⟩ }

end Standing

end Sys2Proof.Machine
end

section
/-! A law of the home's tables, now and once the decision that stands is applied: `TableLaw` lists the changes of the
tables that such a law has to keep, and `TableLaw.kept` says that then every command keeps it, with the engagement. -/

namespace Sys2Proof.Machine

/-- A decision leaves the record of a station that does not stall. -/
theorem takeEngaged_record {h : Hw} {r : TxRecord} (hr : h.lbc.record = some r) (hs : r.lstall = false) :
    (takeEngaged h).lbc.record = some r := by
  obtain he | ⟨q, -, -, -, -, -, he⟩ := takeEngaged_cases h <;> rw [he]
  · exact hr
  · rw [show (recordDecision q h).lbc.record = h.lbc.record.map fun r => { r with lstall := false } from rfl, hr,
      Option.map_some, ← hs]

/-- A decision stands from the close of the observation phase on (R36). -/
theorem phaseAfterClose_decided (r : TxRecord) (b : Bool) : (phaseAfterClose r b).decided = true := by
  unfold phaseAfterClose
  split
  · split <;> rfl
  · rfl

/-- A law of the holder table, the waiter pool and the stalled-lock list of a home, in its home state, that every change
of the tables keeps. -/
structure TableLaw (L : HomeState → Htu → Prop) : Prop where
  of_eq {hs : HomeState} {t u : Htu} : L hs t → u.holders = t.holders → u.waiters = t.waiters →
    u.stalled = t.stalled → L hs u
  empty {hs : HomeState} {t : Htu} : t.holders = [] → t.waiters = [] → t.stalled = [] → L hs t
  served {t : Htu} : L .rebuilding t → L .serving t
  moved {hs : HomeState} {t : Htu} {i : LockIndex} {w : Waiter} (p : Option Bool) : headWaiter i t = some w →
    compatible w.mode (holdersOf i t) = true → holderFree t = true → L hs t → L hs (t.moveToOffered w p)
  stalled {t : Htu} (l : List LockIndex) : L .serving t → L .serving { t with stalled := l }
  flagged {hs : HomeState} {t : Htu} {f : Holder → Holder} : (∀ e, f e = e ∨ f e = { e with posted := some true }) →
    L hs t → L hs { t with holders := t.holders.map f }
  decided {hs : HomeState} {t : Htu} (r : Request) : L hs t → L hs (t.change (decideRequest hs t r).2)
  accepted {hs : HomeState} {t : Htu} (i : LockIndex) (s : StationId) (n : SlotId) : L hs t → L hs
    { t with holders := t.holders.map fun e => if isOfferTo i s n e then { e with state := .held, posted := none } else e }
  filtered {hs : HomeState} {t : Htu} (p : Waiter → Bool) (q : Holder → Bool) : L hs t →
    L hs { t with waiters := t.waiters.filter p, holders := t.holders.filter q }

/-- The law holds of the tables, now and once the decision that stands is applied. -/
def Tables (L : HomeState → Htu → Prop) (h : Hw) : Prop :=
  L h.home h.htu ∧ ∀ d, h.htu.decision = some d → L h.home (h.htu.change d.changes)

/-- The law of the tables, beside the engagement of the home. -/
def Lawful (L : HomeState → Htu → Prop) (h : Hw) : Prop := Standing h ∧ Tables L h

namespace TableLaw

variable {L : HomeState → Htu → Prop} (k : TableLaw L) {h t : Hw}
include k

/-- A change of the tables reads the tables only. -/
theorem change_of_eq {hs : HomeState} {t u : Htu} (c : Changes) (he : u.holders = t.holders)
    (hw : u.waiters = t.waiters) (hst : u.stalled = t.stalled) (hp : L hs (t.change c)) : L hs (u.change c) :=
  k.of_eq hp (by simp only [Htu.change, Htu.without, he]) (by simp only [Htu.change, Htu.without, hw])
    (by simp only [Htu.change, Htu.without, hst])

theorem tables_of_eq (hp : Tables L h) (hh : t.home = h.home) (he : t.htu.holders = h.htu.holders)
    (hw : t.htu.waiters = h.htu.waiters) (hst : t.htu.stalled = h.htu.stalled)
    (hd : t.htu.decision = h.htu.decision) : Tables L t := by
  obtain ⟨hn, hdec⟩ := hp
  rw [Tables, hh, hd]
  exact ⟨k.of_eq hn he hw hst, fun d hx => k.change_of_eq _ he hw hst (hdec d hx)⟩

omit k in
theorem tables_undecided (hp : L h.home h.htu) (hd : h.htu.decision = none) : Tables L h :=
  ⟨hp, fun d hx => by rw [hd] at hx; cases hx⟩

theorem tables_empty (he : h.htu.holders = []) (hw : h.htu.waiters = []) (hst : h.htu.stalled = [])
    (hd : h.htu.decision = none) : Tables L h := tables_undecided (k.empty he hw hst) hd

/-- The decision on a request recorded. -/
theorem tables_decided (hp : Tables L h) : Tables L (takeEngaged h) := by
  obtain he | ⟨r, -, -, -, -, -, he⟩ := takeEngaged_cases h <;> rw [he]
  · exact hp
  · have hdec : L h.home ((recordDecision r h).htu.change (decideRequest h.home h.htu r).2) :=
      k.change_of_eq (t := h.htu) _ rfl rfl rfl (k.decided r hp.1)
    refine ⟨k.of_eq hp.1 rfl rfl rfl, fun d hd => ?_⟩
    obtain rfl := Option.some.inj hd
    exact hdec

/-- The home serves after its rebuild. -/
theorem tables_served (hp : Tables L h) (hr : h.home = .rebuilding) (hs : t.home = .serving)
    (he : t.htu.holders = h.htu.holders) (hw : t.htu.waiters = h.htu.waiters) (hst : t.htu.stalled = h.htu.stalled)
    (hd : t.htu.decision = h.htu.decision) : Tables L t := by
  obtain ⟨hn, hdec⟩ := hp
  rw [hr] at hn hdec
  rw [Tables, hs, hd]
  exact ⟨k.of_eq (k.served hn) he hw hst, fun d hx => k.change_of_eq _ he hw hst (k.served (hdec d hx))⟩

/-! ### The moves of the home -/

omit k in
/-- The tables change at a home where no decision stands. -/
theorem lawful_htu {u : Htu} (hp : Standing (h.setHtu u)) (hd : u.decision = none) (hl : L h.home u) :
    Lawful L (h.setHtu u) := ⟨hp, tables_undecided hl hd⟩

/-- Neither tables nor engagement alter. -/
theorem lawful_same {u : Htu} (hp : Lawful L h) (hp' : Standing (h.setHtu u)) (hs : u.holders = h.htu.holders)
    (hw : u.waiters = h.htu.waiters) (hst : u.stalled = h.htu.stalled) (hd : u.decision = h.htu.decision) :
    Lawful L (h.setHtu u) := ⟨hp', k.tables_of_eq hp.2 rfl hs hw hst hd⟩

theorem purge_kept : PurgeKept (Lawful L) where
  quiet {h t} hq hp := by
    have hho : t.home = h.home := congrArg (fun c => c.station.home) hq.1
    have hh := hq.2.1
    exact ⟨hp.1.quiet hq, k.tables_of_eq hp.2 hho (by rw [hh]) (by rw [hh]) (by rw [hh]) (by rw [hh])⟩
  claimed hc hx hp :=
    ⟨hp.1.claimed hc hx, k.tables_of_eq hp.2 rfl (by simp) (by simp) (by simp) (by simp)⟩
  moved p hf hw hc hroom hp :=
    lawful_htu (hp.1.of_eq rfl rfl rfl rfl rfl rfl) (hp.1.undecided (.inl hf)) (k.moved p hw hc hroom hp.2.1)
  postedUp _ hp := k.lawful_same hp (hp.1.of_eq rfl rfl rfl rfl rfl rfl) rfl rfl rfl rfl
  backlog _ hp := k.lawful_same hp (hp.1.of_eq rfl rfl rfl rfl rfl rfl) rfl rfl rfl rfl
  stalled {h} l hf hh hp := by
    have hl := hp.2.1
    rw [hh] at hl
    refine lawful_htu (hp.1.of_eq rfl rfl rfl rfl rfl rfl) (hp.1.undecided (.inl hf)) ?_
    rw [hh]
    exact k.stalled l hl
  postedDown hp := k.lawful_same hp (hp.1.of_eq rfl rfl rfl rfl rfl rfl) rfl rfl rfl rfl
  flagged ho hf hp := lawful_htu (hp.1.of_eq rfl rfl rfl rfl rfl rfl) (hp.1.undecided ho) (k.flagged hf hp.2.1)
  awaited _ _ hp := k.lawful_same hp (hp.1.of_eq rfl rfl rfl rfl rfl rfl) rfl rfl rfl rfl
  online {h} hs hp := by
    have hr : h.home = .rebuilding := by rw [Hw.home, hs]; rfl
    exact ⟨hp.1.served 0 rfl, k.tables_served hp.2 hr rfl rfl rfl rfl rfl⟩
  changed r hf hp :=
    lawful_htu (hp.1.of_eq rfl rfl rfl rfl rfl rfl) (hp.1.undecided (.inl hf)) (k.decided r hp.2.1)
  accepted i s n hf hp :=
    lawful_htu (hp.1.of_eq rfl rfl rfl rfl rfl rfl) (hp.1.undecided (.inl hf)) (k.accepted i s n hp.2.1)
  declined {h} i s n hf hp := by
    refine lawful_htu (hp.1.of_eq rfl rfl rfl rfl rfl rfl) (hp.1.undecided (.inl hf)) ?_
    exact k.of_eq (k.filtered (fun _ => true) (fun e => !isOfferTo i s n e) hp.2.1) rfl (by simp) rfl
  purging s g hf _ _ hp := by
    refine lawful_htu (hp.1.startPurge hf _ _ g) (hp.1.undecided (.inl hf)) ?_
    exact k.of_eq (k.filtered (·.station ≠ s) (·.station ≠ s) hp.2.1) rfl rfl rfl
  arrived hf ha hc hp := by
    refine k.lawful_same hp (hp.1.of_htu ?_ rfl Iff.rfl) rfl rfl rfl rfl
    exact hp.1.claims.of_sublist rfl rfl rfl (.refl _) (by simp [ha]) id
  headed {h c rest} hf hc hl hp := by
    refine k.lawful_same hp (hp.1.of_htu ?_ rfl ?_) rfl rfl rfl rfl
    · exact hp.1.claims.of_sublist rfl rfl rfl (by simp [hc]) (.refl _) id
    · simp [hc, hl.symm]
  metArrived hf ha hp := absurd (by simp [ha]) hp.1.claims.unarrived
  met {h rest} hf hc hp := by
    refine ⟨hp.1.met hf hc, k.tables_decided ?_⟩
    exact k.tables_of_eq hp.2 rfl rfl rfl rfl rfl
  decided hp := ⟨hp.1.decided, k.tables_decided hp.2⟩
  purged hg hp := k.lawful_same hp (hp.1.endPurge hg) rfl rfl rfl rfl
  next s g hf hp := by
    refine lawful_htu (hp.1.startPurge hf _ _ g) (hp.1.undecided (.inl hf)) ?_
    exact k.of_eq (k.filtered (·.station ≠ s) (·.station ≠ s) hp.2.1) rfl rfl rfl
  rebuilt {h} hs hp := by
    have hr : h.home = .rebuilding := by rw [Hw.home, hs]; rfl
    exact ⟨hp.1.served h.htu.awaited rfl, k.tables_served hp.2 hr rfl rfl rfl rfl rfl⟩

/-! ### The phases -/

theorem observed (l : Lines) (hp : Lawful L h) : Lawful L (startObservation l h) := by
  unfold startObservation
  split
  · exact hp
  · next r hr =>
    split
    · next hph =>
      have hrole : r.role ≠ .responder := hp.1.unanswered_of_phase hr (by rw [hph]; rfl)
      dsimp only
      split
      · next hresp =>
        obtain ⟨x, hx, hk⟩ := isLock_of_responds_home hresp
        have hg := k.purge_kept.take.settleArrivals hp
        obtain ⟨b, hr'⟩ := StationKept.exists_of_carries
          ((StationKept.carries_kept (some r)).settleArrivals (h := h) (by rw [StationKept.carries, hr]))
        refine ⟨hg.1.reached hr' hrole rfl rfl hx hk (by simp), k.tables_of_eq hg.2 rfl ?_ ?_ ?_ ?_⟩ <;>
          (simp only [setRecord, Hw.setHtu, Htu.meetTransaction]; split <;> rfl)
      · next hresp =>
        obtain ⟨x, hx, hk⟩ := grant_of_responds_target hresp
        exact ⟨hp.1.targeted hr hrole rfl rfl hx hk, k.tables_of_eq hp.2 rfl rfl rfl rfl rfl⟩
      · exact ⟨hp.1.unansweredGoesOn hr hrole rfl rfl rfl rfl, k.tables_of_eq hp.2 rfl rfl rfl rfl rfl⟩
    · exact hp

theorem answerGrant (r : TxRecord) (hp : Lawful L h) : Lawful L (answerGrant r h) := by
  unfold Machine.answerGrant
  split
  · split
    · exact k.purge_kept.tracker ((tracker_frame h).takeGrant _ _ (TrackerFrame.refl h)) hp
    · exact hp
  · exact hp

theorem observationClosed (l : Lines) (hp : Lawful L h) : Lawful L (closeObservation l h) := by
  unfold closeObservation
  split
  · exact hp
  · next r hr =>
    split
    · next hph =>
      dsimp only
      split
      · refine ⟨hp.1.goesOn hr rfl rfl rfl ?_ rfl rfl fun _ => hph, k.tables_of_eq hp.2 rfl rfl rfl rfl rfl⟩
        simp [TxRecord.noteVoid, hph, BusPhase.decided]
      · next hstall =>
        have hfree : r.lstall = false := by
          simpa [wired, observationLines] using (Bool.or_eq_false_iff.mp (Bool.eq_false_iff.mpr hstall)).2
        have hl : .lockTransaction ∉ h.htu.claims := fun hm => by
          rw [(hp.1.linked.waiting hm).2.2 r hr] at hfree
          cases hfree
        have hg := k.purge_kept.decided hp
        have hr' := takeEngaged_record hr hfree
        obtain ⟨d, hd⟩ := takeEngaged_htu h
        refine k.answerGrant r ⟨hg.1.goesOn hr' rfl rfl rfl ?_ rfl rfl fun hm => ?_, k.tables_of_eq hg.2 rfl rfl rfl rfl rfl⟩
        · exact phaseAfterClose_decided r _
        · rw [hd] at hm
          exact absurd hm hl
    · exact hp

/-! ### Every command -/

theorem rounds (pl nl : BitVec 16) (hr : h.lbc.record = none) (hp : Lawful L h) : Lawful L (holdRounds pl nl h) := by
  refine ⟨hp.1.rounds pl nl hr, ?_⟩
  obtain he | ⟨w, round, c, he, -⟩ := holdRounds_cases pl nl h <;> rw [he]
  · exact hp.2
  · have hho : (wonBy w round c h).home = h.home := congrArg (fun c => c.station.home) (wonBy_scu w round c h)
    obtain ⟨hh, -⟩ | ⟨_, -, -, hh⟩ := wonBy_htu w round c h <;>
      exact k.tables_of_eq hp.2 hho (by simp [hh]) (by simp [hh]) (by simp [hh]) (by simp [hh])

/-- The SCU alters, the home state stays. -/
theorem of_home {c : Scu} (hp : Lawful L h) (hc : c.station.home = h.scu.station.home) :
    Lawful L { h with scu := c } := by
  have hho : ({ h with scu := c } : Hw).home = h.home := hc
  exact ⟨hp.1.keeps (by rw [hho]; exact hp.1.claims) rfl (fun _ => .inl) rfl Iff.rfl,
    k.tables_of_eq hp.2 hc rfl rfl rfl rfl⟩

/-- A phase that touches the record only. -/
theorem of_record (hp : Lawful L h) (ht : Standing t) (hs : t.scu = h.scu) (hh : t.htu = h.htu) : Lawful L t :=
  ⟨ht, k.tables_of_eq hp.2 (congrArg (fun c => c.station.home) hs) (by rw [hh]) (by rw [hh]) (by rw [hh]) (by rw [hh])⟩

theorem answeredWork {g : Hw} {r : TxRecord} {x : Transaction} (o : BusOutcome) (hr : h.lbc.record = some r)
    (hph : r.phase = .completion) (hrole : r.role = .responder) (hx : recordRequest r = some x) (hk : x.kind ≠ .grant)
    (hg : HomeFrame (closeRecord h) g) (hp : Lawful L h) :
    Lawful L ((if o = .void then id else applyDecision g.htu.decision) (g.setHtu g.htu.freed)) := by
  have hs := hp.1.answered hr hph hrole hx hk hg
  obtain ⟨⟨hho, -⟩, hh, -, -⟩ := hg
  have hh : g.htu = h.htu := hh
  have hho : g.home = h.home := hho
  obtain ⟨hn, hdec⟩ := hp.2
  rw [← hho, ← hh] at hn hdec
  refine k.purge_kept.answeredWork o ⟨hs, tables_undecided (k.of_eq hn rfl rfl rfl) rfl⟩ fun d hd => ⟨?_, ?_⟩
  · exact hs.of_eq rfl rfl rfl rfl rfl rfl
  · exact tables_undecided (k.change_of_eq (t := g.htu) _ rfl rfl rfl (hdec d hd)) rfl

/-- Every command keeps the law, with the engagement. -/
theorem kept : StrapKept (Lawful L) where
  toTakeKept := k.purge_kept.take
  control hc _ hp := k.of_home hp hc
  strapped hc hp := k.of_home hp (by rw [hc])
  entered {h} st a t hj hr hst _ hp := by
    have hi : h.home = .inactive := by rw [Hw.home, hj]; rfl
    have hn : st.home ≠ .inactive := by obtain ⟨rfl, -⟩ | rfl := hst <;> simp [StationState.home]
    obtain ⟨ht, hl⟩ := hp.1.linked.unrecorded hr
    refine ⟨hp.1.keeps ?_ rfl (fun _ => .inl) rfl Iff.rfl, k.tables_empty rfl rfl rfl (hp.1.claims.undecided ht)⟩
    have hc := hp.1.claims
    rw [hi] at hc
    exact hc.entered st.home hn a t
  reset c h :=
    ⟨⟨ClaimsStand.reset _, ⟨fun _ hr => (by cases hr), fun _ hr => (by cases hr), fun _ _ hr => (by cases hr),
      fun _ hx => (by cases hx)⟩, Linked.of_unrecorded rfl (by simp [stationReset, Htu.reset]) List.not_mem_nil⟩,
      k.tables_empty rfl rfl rfl rfl⟩
  left h := by
    have hl : (ownLeave h).lbc = .reset := by simp [ownLeave]
    have hh : (ownLeave h).htu = .reset := by simp [ownLeave]
    refine ⟨⟨by rw [hh]; exact ClaimsStand.reset _, ⟨?_, ?_, ?_, ?_⟩, Linked.of_unrecorded (by rw [hl]; rfl) ?_ ?_⟩,
      k.tables_empty (by rw [hh]; rfl) (by rw [hh]; rfl) (by rw [hh]; rfl) (by rw [hh]; rfl)⟩
    all_goals simp [hl, hh, Lbc.reset, Htu.reset]
  gone {h} hs hp := by
    refine ⟨hp.1.served 0 rfl, ?_⟩
    obtain hs | hs := hs
    · exact k.tables_served hp.2 (by rw [Hw.home, hs]; rfl) rfl rfl rfl rfl rfl
    · exact k.tables_of_eq hp.2 (by rw [Hw.home, Hw.home, hs]; rfl) rfl rfl rfl rfl
  expired {h} ht hp := by
    refine ⟨hp.1.of_htu (hp.1.claims.expired ht) (receive_engaged _ _) ?_,
      k.tables_of_eq hp.2 rfl (by simp) (by simp) (by simp) (by simp)⟩
    unfold Htu.receive
    split <;> simp
  ticked {h} hp := by
    refine k.lawful_same hp (hp.1.of_htu ?_ rfl Iff.rfl) rfl rfl rfl rfl
    exact hp.1.claims.of_sublist rfl rfl rfl (.refl _) (.refl _) fun ht => by rw [ht]; rfl
  rounds pl nl hr hp := k.rounds pl nl hr hp
  requested {h} a b hp := k.of_record hp (hp.1.requested a b) (by unfold readRequestPhase; split <;> [rfl; (split <;> rfl)])
    (by unfold readRequestPhase; split <;> [rfl; (split <;> rfl)])
  observed l hp := k.observed l hp
  observationClosed l hp := k.observationClosed l hp
  responded {h} l hp := k.of_record hp (hp.1.responded l) (by unfold readResponsePhase; split <;> [(split <;> rfl); rfl])
    (by unfold readResponsePhase; split <;> [(split <;> rfl); rfl])
  closed hr hph hrole hp := k.of_record hp (hp.1.closed hr hph hrole) rfl rfl
  answered o hr hph hrole hx hk hg hp := k.purge_kept.take.takeWaiting _ (k.answeredWork o hr hph hrole hx hk hg hp)
  released {h g r x cs} hr hrole hx hk hp he hn hcs hg :=
    k.purge_kept.take.takeWaiting _ ⟨hp.1.released hr hrole hx hk he hn hcs hg.1,
      tables_undecided (k.of_eq hg.2.1 rfl rfl rfl) rfl⟩
  finished hp := k.purge_kept.finishPurge hp

end TableLaw

end Sys2Proof.Machine
end

section
/-! O60: the locks of a home stay exclusive, and its engagement is as R23 gives it: a home that becomes free takes the
claims that waited. -/

namespace Sys2Proof.Machine

/-! ### Exclusive locks -/

theorem exclusive_table : TableLaw fun _ t => exclusiveLaw t.holders where
  of_eq hp he _ _ := by rwa [he]
  empty he _ _ := by
    rw [he]
    exact List.Pairwise.nil
  served := id
  moved {hs t i w} p hw hc _ hp := by
    have hi : w.index = i := by simpa using List.find?_some hw
    exact append_exclusiveLaw hp (by rw [show (offeredEntry w p).index = i from hi]; exact hc)
  stalled _ := id
  flagged hf hp := map_exclusiveLaw _ (fun e => by obtain he | he := hf e <;> rw [he] <;> simp) hp
  decided r hp := decideRequest_exclusiveLaw _ _ r hp
  accepted _ _ _ hp := map_exclusiveLaw _ (fun e => by split <;> simp) hp
  filtered _ q hp := filter_exclusiveLaw q hp

/-! ### The claims of a free home -/

/-- A free home has at most `n` claims in its list. -/
def claimsWithin (n : Nat) (h : Hw) : Prop := h.htu.engaged ≠ .free ∨ h.htu.claims.length ≤ n

theorem takeEngaged_claimsWithin {n : Nat} {h : Hw} : claimsWithin n (takeEngaged h) ↔ claimsWithin n h := by
  obtain ⟨d, hd⟩ := takeEngaged_htu h
  rw [claimsWithin, hd]
  rfl

theorem takeTransaction_claimsWithin (n : Nat) (h : Hw) : claimsWithin n (takeTransaction h) :=
  takeEngaged_claimsWithin.mpr (.inl (by simp [Hw.setHtu]))

/-- Claims that come to a free home do not enter its list, and the taking of a claim lengthens it not. -/
theorem claimsWithin_table (n : Nat) : TableKept (claimsWithin n) where
  quiet hq hp := by
    obtain ⟨-, hh, -⟩ := hq
    rwa [claimsWithin, hh]
  claimed {h c} _ _ hp := by
    by_cases hf : h.htu.engaged = .free
    · rw [claimsWithin, addClaim_htu, receive_atFree hf]
      exact hp
    · exact .inl (by simpa using hf)
  moved _ _ _ _ _ hp := hp
  postedUp _ hp := hp
  backlog _ hp := hp
  stalled _ _ _ hp := hp
  postedDown hp := hp
  flagged _ _ hp := hp
  awaited _ _ hp := hp
  online _ hp := hp
  changed _ _ hp := hp
  accepted _ _ _ _ hp := hp
  declined _ _ _ _ hp := hp
  purging _ _ _ _ _ _ := .inl (by simp [Hw.setHtu])
  arrived _ _ _ hp := hp
  headed _ hc _ hp := hp.imp_right fun hl => by
    rw [hc] at hl
    exact (Nat.le_succ _).trans hl
  metArrived _ _ _ := takeTransaction_claimsWithin n _
  met _ _ _ := takeTransaction_claimsWithin n _
  decided hp := takeEngaged_claimsWithin.mpr hp

/-- A free home that takes the head of its list has one claim less. -/
theorem takeHead_claimsWithin {n : Nat} {h : Hw} (hp : claimsWithin (n + 1) h) : claimsWithin n (takeHead h) := by
  unfold takeHead
  split
  · next c rest hf hc =>
    have hl : rest.length ≤ n := by
      have h1 := hp.resolve_left (not_not.mpr hf)
      rw [hc, List.length_cons] at h1
      omega
    by_cases hk : c = .lockTransaction
    · subst hk
      exact takeTransaction_claimsWithin n _
    · exact (claimsWithin_table n).take.takeClaim (h := h.setHtu _) c hk hf (.inr hl)
  · next hn =>
    by_cases hf : h.htu.engaged = .free
    · refine .inr ?_
      cases hc : h.htu.claims with
      | nil => exact Nat.zero_le n
      | cons c rest => exact absurd hc (hn c rest hf)
    · exact .inl hf

theorem takeWaiting_claimsWithin {k : Nat} {h : Hw} (hp : claimsWithin k h) : claimsWithin 0 (takeWaiting k h) := by
  induction k generalizing h with
  | zero => exact hp
  | succ k ih => exact ih (takeHead_claimsWithin hp)

theorem continueRebuild_claimsWithin {n : Nat} {p : Purge} {h : Hw} (hp : claimsWithin n h) :
    claimsWithin n (continueRebuild p h) := by
  unfold continueRebuild
  split
  · dsimp only
    split
    · exact .inl (by simp [startPurge, PostKept.withdrawOffers_engaged, Hw.setHtu])
    · unfold endRebuild
      split
      · simpa [claimsWithin] using hp
      · simpa [claimsWithin] using hp
  · exact hp

theorem finishPurge_claimsWithin {h : Hw} (hp : claimsWithin 0 h) : claimsWithin 0 (finishPurge h) := by
  unfold finishPurge
  split
  · exact hp
  · next p _ =>
    refine takeWaiting_claimsWithin ?_
    rw [PurgeKept.endPurge_eq]
    have hf : claimsWithin h.htu.claims.length (PurgeKept.purgeFreed p h) := .inr (by simp [PurgeKept.purgeFreed, Hw.setHtu])
    exact continueRebuild_claimsWithin ((claimsWithin_table _).evaluateTouched p.touched hf rfl).1

/-- A home freed at a completion takes every claim that waited. -/
theorem claims_kept : StrapKept (claimsWithin 0) where
  toTakeKept := (claimsWithin_table 0).take
  control _ _ hp := hp
  strapped _ hp := hp
  entered _ _ _ _ _ _ _ hp := hp
  reset _ _ := .inr (Nat.zero_le 0)
  left h := .inr (by simp [ownLeave, Htu.reset])
  gone _ hp := hp
  expired {h} _ hp := by
    by_cases hf : h.htu.engaged = .free
    · rw [claimsWithin, addClaim_htu, receive_atFree (by exact hf)]
      exact hp
    · exact .inl (by simpa using hf)
  ticked hp := hp
  rounds {h} pl nl _ hp := by
    obtain he | ⟨w, round, c, he, -⟩ := holdRounds_cases pl nl h <;> rw [he]
    · exact hp
    · obtain ⟨hh, -⟩ | ⟨_, -, -, hh⟩ := wonBy_htu w round c h <;> rw [claimsWithin, hh]
      · exact hp
      · exact .inl (by simp)
  requested _ _ hp := by
    unfold readRequestPhase
    split
    · exact hp
    · split <;> exact hp
  observed _ hp := by
    unfold startObservation
    split
    · exact hp
    · split
      · dsimp only
        split
        · refine .inl ?_
          simp only [setRecord, Hw.setHtu, Htu.meetTransaction]
          split
          · simp
          · assumption
        · exact hp
        · exact hp
      · exact hp
  observationClosed {h} l hp := by
    have hd := (claimsWithin_table 0).decided hp
    unfold closeObservation
    split
    · exact hp
    · split
      · dsimp only
        split
        · exact hp
        · unfold answerGrant
          split
          · split
            · exact (claimsWithin_table 0).tracker ((tracker_frame _).takeGrant _ _ (TrackerFrame.refl _)) hd
            · exact hd
          · exact hd
      · exact hp
  responded _ hp := by
    unfold readResponsePhase
    split
    · split <;> exact hp
    · exact hp
  closed _ _ _ hp := hp
  answered {h g r x} o _ _ _ _ _ _ _ := by
    refine takeWaiting_claimsWithin ?_
    have hf : claimsWithin g.htu.claims.length (g.setHtu g.htu.freed) := .inr (by simp [Hw.setHtu])
    split
    · exact hf
    · unfold applyDecision
      split
      · exact (claimsWithin_table _).applyChanges (fun g => Quiet.refl g) _ rfl hf
      · exact hf
  released _ _ _ _ _ _ _ _ _ := takeWaiting_claimsWithin (.inr (by simp [Hw.setHtu]))
  finished hp := finishPurge_claimsWithin hp

/-! ### The home's law -/

theorem homeLaw_iff (h : Hw) : homeLaw h ↔ Lawful (fun _ t => exclusiveLaw t.holders) h ∧ claimsWithin 0 h := by
  unfold homeLaw Lawful Tables claimsWithin
  rw [engagementLaw_iff, Nat.le_zero, List.length_eq_zero_iff]
  tauto

/-- Settles O60: the engagement and the tables by the moves of the home, the claims of a free home by the ends of its
engagements. -/
theorem exclusiveHoldsKept : Obligations.ExclusiveHoldsKept := by
  unfold Obligations.ExclusiveHoldsKept
  intro s t hl ht
  rw [homeLaw_iff] at hl ⊢
  obtain ⟨hp, hc⟩ := hl
  exact ⟨exclusive_table.kept.step hp ht, claims_kept.step hc ht⟩

end Sys2Proof.Machine
end

section
/-! The capacities of a home's tables (R5, R7), and its records of one client (R5, R8), by the changes of its tables. -/

namespace Sys2Proof.Machine

/-! ### What a decision adds -/

/-- A decision adds nothing, or what it adds has found room, and after an ACQUIRE only the superseded entries are gone
(R56 to R58, R138). -/
theorem decideRequest_adds (hs : HomeState) (t : Htu) (r : Request) :
    ((decideRequest hs t r).2.addHolder = none ∧ (decideRequest hs t r).2.addWaiter = none)
      ∨ (holderFree (t.without (superseded r t)) = true
        ∧ (decideRequest hs t r).2 = { superseded r t with addHolder := some (heldEntry r) })
      ∨ (hs ≠ .rebuilding ∧ waiterFree (t.without (superseded r t)) = true
        ∧ (decideRequest hs t r).2 = { superseded r t with addWaiter := some (waiterEntry r) })
      ∨ (hs = .rebuilding ∧ holderFree t = true ∧ findHolder r.index r.station r.slot t = none
        ∧ (decideRequest hs t r).2 = { addHolder := some (heldEntry r) }) := by
  unfold decideRequest
  split
  · unfold decideAcquire
    dsimp only
    split
    · exact .inl ⟨rfl, rfl⟩
    · next hn =>
      split
      · next hg => exact .inr (.inl ⟨hg.2, rfl⟩)
      · split
        · exact .inl ⟨rfl, rfl⟩
        · split
          · exact .inl ⟨rfl, rfl⟩
          · split
            · next hw => exact .inr (.inr (.inl ⟨hn, hw, rfl⟩))
            · exact .inl ⟨rfl, rfl⟩
  · unfold decideRelease
    split <;> exact .inl ⟨rfl, rfl⟩
  · unfold decideDowngrade
    split
    · exact .inl ⟨rfl, rfl⟩
    · split
      · split <;> exact .inl ⟨rfl, rfl⟩
      · exact .inl ⟨rfl, rfl⟩
  · unfold decideCancel
    split
    · exact .inl ⟨rfl, rfl⟩
    · split <;> exact .inl ⟨rfl, rfl⟩
  · unfold decideReassert
    split
    · exact .inl ⟨rfl, rfl⟩
    · next hr =>
      split
      · exact .inl ⟨rfl, rfl⟩
      · split
        · exact .inl ⟨rfl, rfl⟩
        · split
          · exact .inl ⟨rfl, rfl⟩
          · next hn =>
            split
            · next hc =>
              exact .inr (.inr (.inr ⟨not_not.mp hr, hc.2, Option.not_isSome_iff_eq_none.mp hn, rfl⟩))
            · exact .inl ⟨rfl, rfl⟩
  all_goals exact .inl ⟨rfl, rfl⟩

/-! ### Capacities -/

/-- The tables have room for their entries (R5, R7). -/
def withinCapacity (t : Htu) : Prop := t.holders.length ≤ 512 ∧ t.waiters.length ≤ 192

theorem without_withinCapacity {t : Htu} (c : Changes) (hp : withinCapacity t) : withinCapacity (t.without c) :=
  ⟨(List.length_filter_le _ _).trans hp.1, (List.length_filter_le _ _).trans hp.2⟩

/-- A decision changes the lengths of the tables by what it removes and by what it adds. -/
theorem change_lengths (t : Htu) (c : Changes) :
    (t.change c).holders.length = (t.without c).holders.length + c.addHolder.toList.length
      ∧ (t.change c).waiters.length = (t.without c).waiters.length + c.addWaiter.toList.length := by
  unfold Htu.change
  dsimp only
  constructor
  · split <;> simp
  · simp

theorem capacity_table : TableLaw fun _ t => withinCapacity t where
  of_eq hp he hw _ := by rwa [withinCapacity, he, hw]
  empty he hw _ := by simp [withinCapacity, he, hw]
  served := id
  moved {hs t i w} p _ _ hroom hp := by
    have hlt : t.holders.length < 512 := by simpa [holderFree, Config.holderCapacity] using hroom
    exact ⟨by simp only [Htu.moveToOffered, List.length_append, List.length_singleton]; omega,
      (List.length_erase_le).trans hp.2⟩
  stalled _ := id
  flagged _ hp := by simpa [withinCapacity] using hp
  decided {hs t} r hp := by
    obtain ⟨hl1, hl2⟩ := change_lengths t (decideRequest hs t r).2
    have hs1 := without_withinCapacity (decideRequest hs t r).2 hp
    rw [withinCapacity, hl1, hl2]
    obtain ⟨ha, hb⟩ | ⟨hroom, hc⟩ | ⟨-, hroom, hc⟩ | ⟨-, hroom, -, hc⟩ := decideRequest_adds hs t r
    · rw [ha, hb]
      exact hs1
    · have hlt : (t.without (superseded r t)).holders.length < 512 := by
        simpa [holderFree, Config.holderCapacity] using hroom
      rw [hc] at hs1 ⊢
      exact ⟨hlt, hs1.2⟩
    · have hlt : (t.without (superseded r t)).waiters.length < 192 := by
        simpa [waiterFree, Config.waiterCapacity] using hroom
      rw [hc] at hs1 ⊢
      exact ⟨hs1.1, hlt⟩
    · have hlt : t.holders.length < 512 := by simpa [holderFree, Config.holderCapacity] using hroom
      rw [hc] at hs1 ⊢
      exact ⟨Nat.succ_le_of_lt ((List.length_filter_le _ _).trans_lt hlt), hs1.2⟩
  accepted _ _ _ hp := by simpa [withinCapacity] using hp
  filtered _ _ hp := ⟨(List.length_filter_le _ _).trans hp.1, (List.length_filter_le _ _).trans hp.2⟩

/-! ### A rebuild -/

/-- A home that rebuilds has no waiter and no stalled lock (R4, R57). -/
def waitless (hs : HomeState) (t : Htu) : Prop := hs = .rebuilding → t.waiters = [] ∧ t.stalled = []

theorem rebuild_table : TableLaw waitless where
  of_eq hp _ hw hst := by rwa [waitless, hw, hst]
  empty _ hw hst _ := ⟨hw, hst⟩
  served _ hr := by cases hr
  moved {hs t i w} p _ _ _ hp hr := by
    obtain ⟨hw, hst⟩ := hp hr
    exact ⟨by simp [Htu.moveToOffered, hw], hst⟩
  stalled _ _ hr := by cases hr
  flagged _ hp := hp
  decided {hs t} r hp hr := by
    obtain ⟨hw, hst⟩ := hp hr
    refine ⟨?_, hst⟩
    have hnone : (decideRequest hs t r).2.addWaiter = none := by
      obtain ⟨-, hb⟩ | ⟨-, hc⟩ | ⟨hn, -⟩ | ⟨-, -, -, hc⟩ := decideRequest_adds hs t r
      · exact hb
      · rw [hc]
        rfl
      · exact absurd hr hn
      · rw [hc]
    simp [Htu.change, Htu.without, hw, hnone]
  accepted _ _ _ hp := hp
  filtered _ _ hp hr := by
    obtain ⟨hw, hst⟩ := hp hr
    exact ⟨by simp [hw], hst⟩

/-! ### The records of one client -/

/-- The client of an entry on its lock, and the client alone. -/
def Holder.key (e : Holder) : LockIndex × StationId × SlotId := (e.index, e.station, e.slot)
def Holder.client (e : Holder) : StationId × SlotId := (e.station, e.slot)
def Waiter.key (w : Waiter) : LockIndex × StationId × SlotId := (w.index, w.station, w.slot)
def Waiter.client (w : Waiter) : StationId × SlotId := (w.station, w.slot)

/-- The clients of the OFFERED entries. -/
def offeredClients (es : List Holder) : List (StationId × SlotId) := (es.filter (·.state = .offered)).map Holder.client

theorem clientOnce_iff (t : Htu) :
    clientOnce t ↔ (t.waiters.map Waiter.key ++ t.holders.map Holder.key).Nodup
      ∧ (t.waiters.map Waiter.client ++ offeredClients t.holders).Nodup := Iff.rfl

/-- Entries go, and keep their clients. -/
theorem clientOnce_of_sublist {t u : Htu} (hw : u.waiters.Sublist t.waiters)
    (hk : (u.holders.map Holder.key).Sublist (t.holders.map Holder.key))
    (ho : (offeredClients u.holders).Sublist (offeredClients t.holders)) (hp : clientOnce t) : clientOnce u := by
  rw [clientOnce_iff] at hp ⊢
  exact ⟨hp.1.sublist ((hw.map _).append hk), hp.2.sublist ((hw.map _).append ho)⟩

theorem offeredClients_sublist {es fs : List Holder} (hs : es.Sublist fs) :
    (offeredClients es).Sublist (offeredClients fs) := (hs.filter _).map _

/-- An alteration that keeps the clients, and makes no entry OFFERED. -/
theorem offeredClients_map {f : Holder → Holder} (es : List Holder) (hk : ∀ e, (f e).client = e.client)
    (hs : ∀ e, (f e).state = .offered → e.state = .offered) :
    (offeredClients (es.map f)).Sublist (offeredClients es) := by
  rw [offeredClients, List.filter_map, List.map_map]
  have hc : Holder.client ∘ f = Holder.client := funext hk
  rw [hc]
  refine List.Sublist.map _ (List.monotone_filter_right es fun e he => ?_)
  simpa using hs e (by simpa using he)

theorem clientOnce_map {t : Htu} {f : Holder → Holder} (hk : ∀ e, (f e).key = e.key)
    (hs : ∀ e, (f e).state = .offered → e.state = .offered) (hp : clientOnce t) :
    clientOnce { t with holders := t.holders.map f } := by
  refine clientOnce_of_sublist (t := t) (.refl _) ?_ (offeredClients_map _ (fun e => congrArg Prod.snd (hk e)) hs) hp
  rw [List.map_map, show Holder.key ∘ f = Holder.key from funext hk]

/-- The waiter that becomes OFFERED has the same client (R11). -/
theorem clientOnce_moved {t : Htu} {w : Waiter} (p : Option Bool) (hw : w ∈ t.waiters) (hp : clientOnce t) :
    clientOnce (t.moveToOffered w p) := by
  rw [clientOnce_iff] at hp ⊢
  have hperm := List.perm_cons_erase hw
  have hoff : offeredClients (t.holders ++ [offeredEntry w p]) = offeredClients t.holders ++ [w.client] := by
    simp [offeredClients, offeredEntry, Holder.client, Waiter.client]
  have moves : ∀ {α : Type} (f : Waiter → α) (l : List α),
      (t.waiters.map f ++ l).Perm ((t.waiters.erase w).map f ++ (l ++ [f w])) := fun f l => by
    rw [← List.append_assoc]
    exact ((hperm.map f).append_right l).trans (List.perm_append_singleton (f w) _).symm
  have hkey : (t.holders ++ [offeredEntry w p]).map Holder.key = t.holders.map Holder.key ++ [w.key] := by
    simp [offeredEntry, Holder.key, Waiter.key]
  rw [Htu.moveToOffered, hoff, hkey]
  exact ⟨(moves Waiter.key _).nodup_iff.mp hp.1, (moves Waiter.client _).nodup_iff.mp hp.2⟩

/-- A HELD entry is added for a client that has no record on the lock. -/
theorem clientOnce_addHolder {t : Htu} {e : Holder} (hs : e.state = .held) (hw : ∀ w ∈ t.waiters, w.key ≠ e.key)
    (he : ∀ f ∈ t.holders, f.key ≠ e.key) (hp : clientOnce t) :
    clientOnce { t with holders := t.holders ++ [e] } := by
  rw [clientOnce_iff] at hp ⊢
  have hoff : offeredClients (t.holders ++ [e]) = offeredClients t.holders := by simp [offeredClients, hs]
  refine ⟨?_, by rw [hoff]; exact hp.2⟩
  rw [List.map_append, ← List.append_assoc]
  refine hp.1.append (List.nodup_singleton _) (List.disjoint_singleton.mpr fun hm => ?_)
  simp only [List.mem_append, List.mem_map] at hm
  obtain ⟨w, hm, hk⟩ | ⟨f, hm, hk⟩ := hm
  · exact hw w hm hk
  · exact he f hm hk

/-- A waiter is added for a client that neither waits nor has an offer, nor a record on the lock. -/
theorem clientOnce_addWaiter {t : Htu} {w : Waiter} (hw : ∀ v ∈ t.waiters, v.client ≠ w.client)
    (he : ∀ f ∈ t.holders, f.client = w.client → f.state ≠ .offered ∧ f.index ≠ w.index) (hp : clientOnce t) :
    clientOnce { t with waiters := t.waiters ++ [w] } := by
  rw [clientOnce_iff] at hp ⊢
  have add : ∀ {α : Type} (l : List α) (m : List α) (x : α), x ∉ l → x ∉ m → (l ++ m).Nodup → (l ++ [x] ++ m).Nodup :=
    fun l m x hl hm hn => by
      rw [List.append_assoc]
      refine (List.perm_middle (l₁ := l) (l₂ := m)).nodup_iff.mpr (List.nodup_cons.mpr ⟨?_, hn⟩)
      rw [List.mem_append]
      exact not_or.mpr ⟨hl, hm⟩
  constructor
  · rw [List.map_append]
    refine add _ _ _ (fun hm => ?_) (fun hm => ?_) hp.1
    · obtain ⟨v, hv, hk⟩ := List.mem_map.mp hm
      exact hw v hv (congrArg Prod.snd hk)
    · obtain ⟨f, hf, hk⟩ := List.mem_map.mp hm
      exact (he f hf (congrArg Prod.snd hk)).2 (congrArg Prod.fst hk)
  · rw [List.map_append]
    refine add _ _ _ (fun hm => ?_) (fun hm => ?_) hp.2
    · obtain ⟨v, hv, hk⟩ := List.mem_map.mp hm
      exact hw v hv hk
    · obtain ⟨f, hf, hk⟩ := List.mem_map.mp hm
      obtain ⟨hf, hst⟩ := List.mem_filter.mp hf
      exact (he f hf hk).1 (by simpa using hst)

theorem without_clientOnce {t : Htu} (c : Changes) (hp : clientOnce t) : clientOnce (t.without c) :=
  clientOnce_of_sublist List.filter_sublist (List.filter_sublist.map _) (offeredClients_sublist List.filter_sublist) hp

/-- After the supersede step the client has no waiter, no offer, and no entry on the lock (R56). -/
theorem superseded_waiters {t : Htu} {r : Request} :
    ∀ w ∈ (t.without (superseded r t)).waiters, ¬(w.station = r.station ∧ w.slot = r.slot) := by
  intro w hw hc
  simp only [Htu.without, superseded, List.mem_filter, decide_eq_true_eq, not_and] at hw
  exact hw.2 hw.1 hc.1 hc.2

theorem superseded_holders {t : Htu} {r : Request} :
    ∀ e ∈ (t.without (superseded r t)).holders,
      e.station = r.station → e.slot = r.slot → e.state ≠ .offered ∧ e.index ≠ r.index := by
  intro e he hs hn
  simp only [Htu.without, superseded, List.mem_filter, decide_eq_true_eq, not_and] at he
  exact not_or.mp (he.2 he.1 hs hn)

/-- The removals and the share of a decision that adds nothing. -/
theorem change_clientOnce {t : Htu} {c : Changes} (ha : c.addHolder = none) (hb : c.addWaiter = none)
    (hp : clientOnce t) : clientOnce (t.change c) := by
  have hwo := without_clientOnce c hp
  unfold Htu.change
  simp only [ha, hb, Option.toList_none, List.append_nil]
  split
  · exact clientOnce_map (t := t.without c) (fun e => by split <;> rfl) (fun e => by split <;> exact id) hwo
  · exact hwo

/-- A decision keeps the records of one client, at a home that has no waiter while it rebuilds. -/
theorem decided_clientOnce {hs : HomeState} {t : Htu} (r : Request) (hr : waitless hs t) (hp : clientOnce t) :
    clientOnce (t.change (decideRequest hs t r).2) := by
  obtain ⟨ha, hb⟩ | ⟨-, hc⟩ | ⟨-, -, hc⟩ | ⟨hreb, -, hnone, hc⟩ := decideRequest_adds hs t r
  · exact change_clientOnce ha hb hp
  · rw [hc]
    have hadd := clientOnce_addHolder (e := heldEntry r) rfl
      (fun w hw hk => superseded_waiters w hw ⟨congrArg (·.2.1) hk, congrArg (·.2.2) hk⟩)
      (fun f hf hk => (superseded_holders f hf (congrArg (·.2.1) hk) (congrArg (·.2.2) hk)).2 (congrArg (·.1) hk))
      (without_clientOnce (superseded r t) hp)
    simpa [Htu.change, Htu.without, superseded] using hadd
  · rw [hc]
    have hadd := clientOnce_addWaiter (w := waiterEntry r)
      (fun v hv hk => superseded_waiters v hv ⟨congrArg (·.1) hk, congrArg (·.2) hk⟩)
      (fun f hf hk => superseded_holders f hf (congrArg (·.1) hk) (congrArg (·.2) hk))
      (without_clientOnce (superseded r t) hp)
    simpa [Htu.change, Htu.without, superseded] using hadd
  · rw [hc]
    have hadd := clientOnce_addHolder (e := heldEntry r) rfl
      (fun w hw => by rw [(hr hreb).1] at hw; cases hw)
      (fun f hf hk => by
        have := List.find?_eq_none.mp hnone f hf
        simp only [Holder.key, heldEntry, Prod.mk.injEq] at hk
        simp [hk.1, hk.2.1, hk.2.2] at this)
      hp
    simpa [Htu.change, Htu.without] using hadd

theorem client_table : TableLaw fun hs t => waitless hs t ∧ clientOnce t where
  of_eq hp he hw hst := ⟨rebuild_table.of_eq hp.1 he hw hst, by rw [clientOnce, he, hw]; exact hp.2⟩
  empty he hw hst := ⟨rebuild_table.empty he hw hst, by simp [clientOnce, he, hw]⟩
  served hp := ⟨rebuild_table.served hp.1, hp.2⟩
  moved p hw hc hroom hp :=
    ⟨rebuild_table.moved p hw hc hroom hp.1, clientOnce_moved p (List.mem_of_find?_eq_some hw) hp.2⟩
  stalled l hp := ⟨rebuild_table.stalled l hp.1, hp.2⟩
  flagged hf hp := by
    refine ⟨rebuild_table.flagged hf hp.1, clientOnce_map (fun e => ?_) (fun e => ?_) hp.2⟩ <;>
      obtain he | he := hf e <;> rw [he]
    · rfl
    · exact id
    · exact id
  decided r hp := ⟨rebuild_table.decided r hp.1, decided_clientOnce r hp.1 hp.2⟩
  accepted i s n hp := by
    refine ⟨rebuild_table.accepted i s n hp.1, clientOnce_map (fun e => ?_) (fun e => ?_) hp.2⟩
    · split <;> rfl
    · split
      · exact fun h => by cases h
      · exact id
  filtered p q hp :=
    ⟨rebuild_table.filtered p q hp.1, clientOnce_of_sublist List.filter_sublist (List.filter_sublist.map _)
      (offeredClients_sublist List.filter_sublist) hp.2⟩

end Sys2Proof.Machine
end

section
/-! The evaluation of locks (R10 to R13): what it offers, and that it leaves no offer due: a lock that has one is stalled,
and no lock stays stalled while a holder entry is free. -/

namespace Sys2Proof.Machine

/-! ### The tracker's answer to an offer -/

/-- From `h` to `t` the tracker has answered: claims have reached the home, entries other than GRANTs have been listed at
the tail of the priority list, and nothing else of the other blocks has altered but the normal list and the queue. -/
structure Answered (h t : Hw) : Prop where
  outside : sameOutside h t
  record : t.lbc.record = h.lbc.record
  pointer : t.lbc.pointer = h.lbc.pointer
  claims : ∃ cs : List Claim, t.htu = cs.foldl (fun u c => u.receive c) h.htu
  priority : ∃ placed, t.lbc.priority = h.lbc.priority ++ placed ∧ ∀ x ∈ placed, x.kind ≠ .grant

namespace Answered

variable {h t u : Hw}

theorem refl (h : Hw) : Answered h h := ⟨⟨rfl, rfl, rfl⟩, rfl, rfl, ⟨[], rfl⟩, [], by simp, by simp⟩

/-- What leaves these values alone. -/
theorem still (hp : Answered h t) (ho : sameOutside t u) (hh : u.htu = t.htu) (hr : u.lbc.record = t.lbc.record)
    (hp' : u.lbc.pointer = t.lbc.pointer)
    (hl : ∃ placed, u.lbc.priority = t.lbc.priority ++ placed ∧ ∀ x ∈ placed, x.kind ≠ .grant) : Answered h u := by
  obtain ⟨⟨h1, h2, h3⟩, h4, h5, ⟨cs, h6⟩, ⟨p, h7, h8⟩⟩ := hp
  obtain ⟨g1, g2, g3⟩ := ho
  obtain ⟨q, hq, hq'⟩ := hl
  refine ⟨⟨g1.trans h1, g2.trans h2, g3.trans h3⟩, hr.trans h4, hp'.trans h5, ⟨cs, hh.trans h6⟩, p ++ q, ?_, ?_⟩
  · rw [hq, h7, List.append_assoc]
  · exact List.forall_mem_append.mpr ⟨h8, hq'⟩

theorem still_lbc (hp : Answered h t) (ho : sameOutside t u) (hh : u.htu = t.htu) (hl : u.lbc = t.lbc) :
    Answered h u :=
  hp.still ho hh (by rw [hl]) (by rw [hl]) ⟨[], by simp [hl], by simp⟩

theorem claim (c : Claim) (hp : Answered h t) : Answered h (addClaim c t) := by
  obtain ⟨ho, hr, hp', ⟨cs, hc⟩, hl⟩ := hp
  refine ⟨ho, hr, hp', ⟨cs ++ [c], ?_⟩, hl⟩
  rw [addClaim_htu, hc, List.foldl_append]
  rfl

end Answered

/-- The walker places REASSERTs at the tail of the priority list, and nothing else there (R143). -/
theorem walkerAct_placesTail (h : Hw) :
    ∃ placed, (walkerAct h).lbc.priority = h.lbc.priority ++ placed ∧ ∀ x ∈ placed, x.kind ≠ .grant := by
  obtain ⟨new, -, hl, -, -, -, -, hlock, hend, -⟩ := walkerAct_placed h
  refine ⟨new, hl, fun x hx => ?_⟩
  cases he : x.endFlag
  · obtain ⟨⟨p, -, -, -, hxe, -⟩, -⟩ := hlock x hx he
    simp [hxe]
  · obtain ⟨p, -, hxe, -⟩ := hend x hx he
    simp [hxe]

theorem answered_kept (h : Hw) : AnswerKept (Answered h) where
  holds _ hp := hp.still_lbc ⟨rfl, rfl, rfl⟩ rfl rfl
  slot _ _ hp := hp.still_lbc ⟨rfl, rfl, rfl⟩ rfl rfl
  ended _ _ _ _ hp := hp.still_lbc ⟨by simp, by simp, by simp⟩ (by simp) (by simp)
  placed _ hp := hp.still ⟨rfl, rfl, rfl⟩ rfl rfl rfl ⟨[], by simp, by simp⟩
  claimed _ hp := hp.claim _
  responses _ hp := hp.still_lbc ⟨rfl, rfl, rfl⟩ rfl rfl
  walk hp := hp.still ⟨by simp, by simp, by simp⟩ (by simp) (by simp) (by simp) (walkerAct_placesTail _)

/-- An internal offer is answered, and its outcome is the last claim that comes to the home (R69, R92). -/
theorem internalOffer_answers (n : SlotId) (l : LockId) (m : Mode) (h : Hw) :
    Answered h (internalOffer n l m h) ∧ ∃ (cs : List Claim) (b : Bool),
      (internalOffer n l m h).htu = (cs ++ [Claim.internalOutcome n l m b]).foldl (fun u c => u.receive c) h.htu := by
  refine ⟨(answered_kept h).internalOffer l m (Answered.refl h), ?_⟩
  have hc := (answered_kept h).takeSlotResponses (n := n) h.rqt.responses.length (Answered.refl h)
  unfold internalOffer
  dsimp only
  generalize hacc : (answerOffer n l m (takeSlotResponses n h.rqt.responses.length h)).1 = b
  have ha : Answered h (if b = true then acquireHeld n m (takeSlotResponses n h.rqt.responses.length h)
      else takeSlotResponses n h.rqt.responses.length h) := by
    split
    · next hb => exact (answered_kept h).acquireHeld m (AnswerKept.active_of_accepts (hacc.trans hb)) hc
    · exact hc
  obtain ⟨cs, hcs⟩ := ha.claims
  refine ⟨cs, b, ?_⟩
  rw [addClaim_htu, hcs, List.foldl_append]
  rfl

/-- The tables of a home, which claims that come to it leave alone. -/
theorem receive_all_tables (cs : List Claim) (u : Htu) :
    (cs.foldl (fun u c => u.receive c) u).holders = u.holders ∧ (cs.foldl (fun u c => u.receive c) u).waiters = u.waiters
      ∧ (cs.foldl (fun u c => u.receive c) u).posted = u.posted
      ∧ (cs.foldl (fun u c => u.receive c) u).backlog = u.backlog
      ∧ (cs.foldl (fun u c => u.receive c) u).stalled = u.stalled := by
  induction cs generalizing u with
  | nil => exact ⟨rfl, rfl, rfl, rfl, rfl⟩
  | cons c cs ih => simpa using ih (u.receive c)

/-- Claims that come to a home do nothing else to it. -/
theorem receive_all_beside (cs : List Claim) (u : Htu) :
    (cs.foldl (fun u c => u.receive c) u).engaged = u.engaged ∧ (cs.foldl (fun u c => u.receive c) u).purge = u.purge
      ∧ (cs.foldl (fun u c => u.receive c) u).decision = u.decision
      ∧ (cs.foldl (fun u c => u.receive c) u).awaited = u.awaited
      ∧ (cs.foldl (fun u c => u.receive c) u).rebuildTimer = u.rebuildTimer := by
  induction cs generalizing u with
  | nil => exact ⟨rfl, rfl, rfl, rfl, rfl⟩
  | cons c cs ih => simpa using ih (u.receive c)

theorem claimsReceived_all (cs : List Claim) (u : Htu) : claimsReceived cs u (cs.foldl (fun u c => u.receive c) u) := by
  induction cs generalizing u with
  | nil => simp [claimsReceived]
  | cons c cs ih =>
    obtain ⟨hf, he⟩ := ih (u.receive c)
    rw [receive_engaged] at hf he
    refine ⟨fun h => ?_, fun h => ?_⟩
    · simpa [receive_atFree h] using hf h
    · simpa [receive_atEngaged h] using he h

/-! ### Offers made -/

/-- What an evaluation leaves alone beside the tables. -/
def besideTables (h t : Hw) : Prop :=
  t.htu.engaged = h.htu.engaged ∧ t.htu.purge = h.htu.purge ∧ t.htu.decision = h.htu.decision
    ∧ t.htu.awaited = h.htu.awaited ∧ t.htu.rebuildTimer = h.htu.rebuildTimer
    ∧ t.lbc.record = h.lbc.record ∧ t.lbc.pointer = h.lbc.pointer ∧ sameOutside h t

theorem besideTables.refl (h : Hw) : besideTables h h := ⟨rfl, rfl, rfl, rfl, rfl, rfl, rfl, rfl, rfl, rfl⟩

theorem besideTables.trans {h g t : Hw} (h1 : besideTables h g) (h2 : besideTables g t) : besideTables h t := by
  obtain ⟨a1, a2, a3, a4, a5, a6, a7, a8, a9, a10⟩ := h1
  obtain ⟨b1, b2, b3, b4, b5, b6, b7, b8, b9, b10⟩ := h2
  exact ⟨b1.trans a1, b2.trans a2, b3.trans a3, b4.trans a4, b5.trans a5, b6.trans a6, b7.trans a7, b8.trans a8,
    b9.trans a9, b10.trans a10⟩

/-- From `h` to `t` the home has offered waiters of some locks, and nothing beside its tables, its claims and the lists has
altered. -/
structure Offering (locks : LockIndex → Prop) (h t : Hw) : Prop where
  made : offersMade locks h t
  beside : besideTables h t

namespace Offering

variable {locks : LockIndex → Prop} {h g t : Hw}

theorem mono {locks' : LockIndex → Prop} (hl : ∀ i, locks i → locks' i) (hp : Offering locks h t) :
    Offering locks' h t := by
  obtain ⟨⟨new, answers, placed, h1, h2, h3⟩, hb⟩ := hp
  exact ⟨⟨new, answers, placed, h1, fun e he => ⟨(h2 e he).1, hl _ (h2 e he).2⟩, h3⟩, hb⟩

/-- No offer is made. -/
theorem stalled (l : List LockIndex) (h : Hw) : Offering locks h (h.setHtu { h.htu with stalled := l }) :=
  ⟨⟨[], [], [], by simp [Hw.setHtu], by simp, fun i => by simp [Hw.setHtu], ⟨by simp [Hw.setHtu], by simp [Hw.setHtu]⟩,
    by simp [Hw.setHtu], by simp, by simp, by simp [Hw.setHtu], by simp, by simp [Hw.setHtu]⟩, besideTables.refl h⟩

theorem refl (h : Hw) : Offering locks h h := stalled h.htu.stalled h

theorem trans (h1 : Offering locks h g) (h2 : Offering locks g t) : Offering locks h t := by
  obtain ⟨⟨n1, a1, p1, hh1, hk1, hw1, hc1, hp1, hi1, ho1, hn1, hg1, hb1⟩, b1⟩ := h1
  obtain ⟨⟨n2, a2, p2, hh2, hk2, hw2, hc2, hp2, hi2, ho2, hn2, hg2, hb2⟩, b2⟩ := h2
  have he : g.htu.engaged = h.htu.engaged := b1.1
  have hid : g.id = h.id := congrArg (·.id) b1.2.2.2.2.2.2.2.1
  rw [hid] at hi2 ho2 hg2
  rw [claimsReceived, he] at hc2
  refine ⟨⟨n1 ++ n2, a1 ++ a2, p1 ++ p2, by rw [hh2, hh1, List.append_assoc], List.forall_mem_append.mpr ⟨hk1, hk2⟩,
    fun i => ?_, ⟨fun hf => ?_, fun hf => ?_⟩, by rw [hp2, hp1, List.append_assoc],
    List.forall_mem_append.mpr ⟨fun e hm hs => ?_, fun e hm hs => ?_⟩, List.forall_mem_append.mpr ⟨ho1, ho2⟩, ?_, ?_, ?_⟩,
    b1.trans b2⟩
  · rw [hw1 i, hw2 i, List.filter_append, List.map_append, List.append_assoc]
  · obtain ⟨x1, x2⟩ := hc1.1 hf
    obtain ⟨y1, y2⟩ := hc2.1 hf
    exact ⟨by rw [y1, x1, List.append_assoc], y2.trans x2⟩
  · obtain ⟨x1, x2⟩ := hc1.2 hf
    obtain ⟨y1, y2⟩ := hc2.2 hf
    exact ⟨by rw [y1, x1, List.append_assoc], y2.trans x2⟩
  · obtain ⟨hpost, b, hm⟩ := hi1 e hm hs
    exact ⟨hpost, b, List.mem_append_left _ hm⟩
  · obtain ⟨hpost, b, hm⟩ := hi2 e hm hs
    exact ⟨hpost, b, List.mem_append_right _ hm⟩
  · rw [hn2, hn1, List.countP_append, Nat.add_assoc]
  · rw [List.filter_append, hg1, hg2, List.filter_append, List.map_append]
  · rw [hb2, hb1, List.filter_append, List.map_append, List.append_assoc]

/-- The locks that are not evaluated keep their queues and their holders. -/
theorem others (hp : Offering locks h t) {j : LockIndex} (hj : ¬locks j) :
    headWaiter j t.htu = headWaiter j h.htu ∧ holdersOf j t.htu = holdersOf j h.htu := by
  obtain ⟨⟨new, -, -, hh, hk, hw, -⟩, -⟩ := hp
  have hnew : new.filter (·.index = j) = [] := by
    refine List.filter_eq_nil_iff.mpr fun e he hc => hj ?_
    rw [← of_decide_eq_true hc]
    exact (hk e he).2
  constructor
  · have hwj := hw j
    rw [hnew, List.map_nil, List.nil_append] at hwj
    rw [headWaiter, headWaiter, ← List.head?_filter, ← List.head?_filter, hwj]
  · rw [holdersOf, holdersOf, hh, List.filter_append, hnew, List.append_nil]

/-- The holder table only grows. -/
theorem full (hp : Offering locks h t) (hf : holderFree h.htu = false) : holderFree t.htu = false := by
  obtain ⟨⟨new, -, -, hh, -⟩, -⟩ := hp
  simp only [holderFree, decide_eq_false_iff_not, not_lt, hh, List.length_append] at hf ⊢
  omega

theorem home (hp : Offering locks h t) : t.home = h.home := congrArg (·.station.home) hp.beside.2.2.2.2.2.2.2.1

end Offering

/-- The head of a lock's queue is the first of its waiters, and the other locks keep theirs. -/
theorem filter_erase_head {l : List Waiter} {i : LockIndex} {w : Waiter} (hw : l.find? (·.index = i) = some w)
    (j : LockIndex) :
    l.filter (·.index = j) = (if w.index = j then [w] else []) ++ (l.erase w).filter (·.index = j) := by
  induction l with
  | nil => cases hw
  | cons v l ih =>
    by_cases hv : v.index = i
    · rw [List.find?_cons_of_pos (by simpa using hv)] at hw
      obtain rfl := Option.some.inj hw
      rw [List.erase_cons_head, List.filter_cons]
      split <;> rename_i hj <;> simp at hj <;> simp [hj]
    · rw [List.find?_cons_of_neg (by simpa using hv)] at hw
      have hwi : w.index = i := by simpa using List.find?_some hw
      have hne : v ≠ w := fun he => hv (he ▸ hwi)
      rw [List.erase_cons_tail (by simpa using hne), List.filter_cons, List.filter_cons, ih hw]
      by_cases hvj : v.index = j
      · have hwj : w.index ≠ j := fun hc => hv (hvj.trans (hc.symm.trans hwi))
        simp [hvj, hwj]
      · simp [hvj]

/-- The offer of the head of a lock's queue (R11). -/
theorem offer_offering {h : Hw} {i : LockIndex} {w : Waiter} (hw : headWaiter i h.htu = some w) :
    Offering (· = i) h (offer w h) := by
  have hi : w.index = i := by simpa using List.find?_some hw
  have hq : ∀ p j, h.htu.waiters.filter (·.index = j)
      = (([offeredEntry w p].filter (·.index = j)).map fun e =>
          ({ index := e.index, station := e.station, slot := e.slot, mode := e.mode } : Waiter))
        ++ (h.htu.waiters.erase w).filter (·.index = j) := by
    intro p j
    rw [filter_erase_head hw j]
    by_cases hj : w.index = j
    · subst hj
      simp [offeredEntry]
    · simp [offeredEntry, hj]
  unfold offer
  split
  · next hs =>
    obtain ⟨⟨ho, hr, hp, -, placed, hpl, hng⟩, cs, b, hcs⟩ :=
      internalOffer_answers w.slot (lockAt h.id w.index) w.mode (h.setHtu (h.htu.moveToOffered w none))
    obtain ⟨t1, t2, t3, t4, -⟩ :=
      receive_all_tables (cs ++ [Claim.internalOutcome w.slot (lockAt h.id w.index) w.mode b]) (h.htu.moveToOffered w none)
    obtain ⟨e1, e2, e3, e4, e5⟩ :=
      receive_all_beside (cs ++ [Claim.internalOutcome w.slot (lockAt h.id w.index) w.mode b]) (h.htu.moveToOffered w none)
    have hrec :=
      claimsReceived_all (cs ++ [Claim.internalOutcome w.slot (lockAt h.id w.index) w.mode b]) (h.htu.moveToOffered w none)
    rw [show (h.htu.moveToOffered w none) = (h.setHtu (h.htu.moveToOffered w none)).htu from rfl, ← hcs]
      at t1 t2 t3 t4 e1 e2 e3 e4 e5 hrec
    refine ⟨⟨[offeredEntry w none], _, placed, t1, by simp [offeredEntry, hi], fun j => by rw [t2]; exact hq none j,
      hrec, hpl, ?_, ?_, ?_, ?_, ?_⟩, e1, e2, e3, e4, e5, hr, hp, ho⟩
    · intro e he _
      rw [List.mem_singleton] at he
      subst he
      exact ⟨rfl, b, List.mem_append_right _ (List.mem_singleton.mpr rfl)⟩
    · simp [offeredEntry, hs]
    · simpa [offeredEntry, Hw.setHtu, Htu.moveToOffered] using t3
    · rw [List.filter_eq_nil_iff.mpr (by simpa using hng)]
      simp [offeredEntry]
    · simpa [offeredEntry, Hw.setHtu, Htu.moveToOffered] using t4
  · next hs =>
    split
    · refine ⟨⟨[offeredEntry w (some true)], [], [grantOf h.id w], rfl, by simp [offeredEntry, hi], hq (some true),
        ⟨fun _ => ⟨by simp [placePriority, Hw.setHtu, Htu.moveToOffered], rfl⟩,
          fun _ => ⟨by simp [placePriority, Hw.setHtu, Htu.moveToOffered], rfl⟩⟩, rfl, ?_, ?_, ?_, ?_, ?_⟩,
        besideTables.refl h⟩
      · simpa [offeredEntry] using hs
      · simp [offeredEntry]
      · simp [offeredEntry, placePriority, Hw.setHtu]
      · simp [offeredEntry, grantOf]
      · simp [offeredEntry, placePriority, Hw.setHtu, Htu.moveToOffered]
    · refine ⟨⟨[offeredEntry w (some false)], [], [], rfl, by simp [offeredEntry, hi], hq (some false),
        ⟨fun _ => ⟨by simp [Hw.setHtu, Htu.moveToOffered], rfl⟩,
          fun _ => ⟨by simp [Hw.setHtu, Htu.moveToOffered], rfl⟩⟩, by simp [Hw.setHtu], ?_, ?_, ?_, ?_, ?_⟩,
        besideTables.refl h⟩
      · simpa [offeredEntry] using hs
      · simp [offeredEntry]
      · simp [offeredEntry, Hw.setHtu, Htu.moveToOffered]
      · simp [offeredEntry]
      · simp [offeredEntry, Hw.setHtu]

/-! ### The evaluation of a lock -/

/-- The lock has an offer due but for the room in the holder table: the head of its queue is compatible (R10). -/
def offerDue (i : LockIndex) (t : Htu) : Prop :=
  ∃ w, headWaiter i t = some w ∧ compatible w.mode (holdersOf i t) = true

/-- A head is compatible where it conflicts with no holder of its lock (R2). -/
theorem compatible_iff (m : Mode) (i : LockIndex) (t : Htu) :
    compatible m (holdersOf i t) = true ↔ ¬∃ e ∈ t.holders, e.index = i ∧ ¬(m = .shared ∧ e.mode = .shared) := by
  simp only [compatible, holdersOf, List.all_eq_true, List.mem_filter, decide_eq_true_eq, and_imp]
  constructor
  · rintro hc ⟨e, he, hi, hn⟩
    exact hn (hc e he hi)
  · exact fun hn e he hi => not_not.mp fun hc => hn ⟨e, he, hi, hc⟩

theorem noOfferDue_iff (i : LockIndex) (h : Hw) : noOfferDue i h ↔ (offerDue i h.htu → 512 ≤ h.htu.holders.length) := by
  constructor
  · rintro hn ⟨w, hw, hc⟩
    exact (hn w hw).resolve_left ((compatible_iff _ _ _).mp hc)
  · intro hn w hw
    by_cases hc : compatible w.mode (holdersOf i h.htu) = true
    · exact .inr (hn ⟨w, hw, hc⟩)
    · exact .inl (not_not.mp fun hx => hc ((compatible_iff _ _ _).mpr hx))

theorem holderFree_eq_false {t : Htu} : holderFree t = false ↔ 512 ≤ t.holders.length := by
  simp [holderFree, Config.holderCapacity]

/-- What an evaluation of lock `i` comes to: offers of that lock alone; then none is due and the lock is no longer stalled,
or the holder table is full and the lock is stalled (R10, R12). -/
structure Evaluated (i : LockIndex) (h t : Hw) : Prop where
  offering : Offering (· = i) h t
  outcome : (¬offerDue i t.htu ∧ t.htu.stalled = h.htu.stalled.erase i)
    ∨ (holderFree t.htu = false ∧ ∀ j, j ∈ t.htu.stalled ↔ j ∈ h.htu.stalled ∨ j = i)

theorem evaluated_unstall {i : LockIndex} {h : Hw} (hd : ¬offerDue i h.htu) : Evaluated i h (unstall i h) :=
  ⟨Offering.stalled _ h, .inl ⟨hd, rfl⟩⟩

/-- An offer leaves the stalled-lock list, and one waiter less. -/
theorem offer_lists {i : LockIndex} {w : Waiter} {h : Hw} (hw : headWaiter i h.htu = some w) :
    (offer w h).htu.stalled = h.htu.stalled ∧ (offer w h).htu.waiters.length < h.htu.waiters.length := by
  have hm : w ∈ h.htu.waiters := List.mem_of_find?_eq_some hw
  have hlt : (h.htu.waiters.erase w).length < h.htu.waiters.length := by
    rw [List.length_erase_of_mem hm]
    have := List.length_pos_of_mem hm
    omega
  unfold offer
  split
  · obtain ⟨-, cs, b, hcs⟩ :=
      internalOffer_answers w.slot (lockAt h.id w.index) w.mode (h.setHtu (h.htu.moveToOffered w none))
    obtain ⟨-, hwait, -, -, hst⟩ :=
      receive_all_tables (cs ++ [Claim.internalOutcome w.slot (lockAt h.id w.index) w.mode b]) (h.htu.moveToOffered w none)
    rw [show (h.htu.moveToOffered w none) = (h.setHtu (h.htu.moveToOffered w none)).htu from rfl, ← hcs] at hst hwait
    exact ⟨hst, by rw [hwait]; exact hlt⟩
  · split <;> exact ⟨rfl, hlt⟩

theorem evaluateFrom_evaluated {i : LockIndex} {k : Nat} {h : Hw} (hk : h.htu.waiters.length ≤ k) :
    Evaluated i h (evaluateFrom i k h) := by
  induction k generalizing h with
  | zero =>
    refine evaluated_unstall fun ⟨w, hw, _⟩ => ?_
    rw [headWaiter, List.length_eq_zero_iff.mp (Nat.le_zero.mp hk)] at hw
    cases hw
  | succ k ih =>
    unfold evaluateFrom
    split
    · next hn =>
      refine evaluated_unstall fun ⟨w, hw, _⟩ => ?_
      rw [hn] at hw
      cases hw
    · next w hw =>
      split
      · next hc =>
        split
        · obtain ⟨hst, hlen⟩ := offer_lists hw
          obtain ⟨ho, hout⟩ := ih (h := offer w h) (by omega)
          rw [hst] at hout
          exact ⟨(offer_offering hw).trans ho, hout⟩
        · next hfull =>
          have hfull : holderFree h.htu = false := Bool.eq_false_iff.mpr hfull
          unfold stall
          split
          · next hm => exact ⟨Offering.refl h, .inr ⟨hfull, fun j => ⟨.inl, fun hj => hj.elim id (· ▸ hm)⟩⟩⟩
          · exact ⟨Offering.stalled _ h, .inr ⟨hfull, fun j => by simp [Hw.setHtu]⟩⟩
      · next hc =>
        refine evaluated_unstall fun ⟨v, hv, hvc⟩ => hc ?_
        obtain rfl := Option.some.inj (hw.symm.trans hv)
        exact hvc

theorem evaluate_evaluated (i : LockIndex) (h : Hw) : Evaluated i h (evaluate i h) := evaluateFrom_evaluated le_rfl

namespace Evaluated

variable {i : LockIndex} {h t : Hw} (hp : Evaluated i h t)
include hp

/-- The evaluation of a lock settles what it had due, and nothing else becomes due. -/
theorem settles {P : LockIndex → Prop} (hd : ∀ j, offerDue j h.htu → j ∈ h.htu.stalled ∨ j = i ∨ P j) (j : LockIndex)
    (hj : offerDue j t.htu) : j ∈ t.htu.stalled ∨ P j := by
  by_cases hji : j = i
  · obtain ⟨hn, -⟩ | ⟨-, hm⟩ := hp.outcome
    · exact absurd (hji ▸ hj) hn
    · exact .inl ((hm j).mpr (.inr hji))
  · obtain ⟨hw, hh⟩ := hp.offering.others (j := j) hji
    have hdue : offerDue j h.htu := by rwa [offerDue, hw, hh] at hj
    obtain hs | he | hP := hd j hdue
    · refine .inl ?_
      obtain ⟨-, hs'⟩ | ⟨-, hs'⟩ := hp.outcome
      · rw [hs']
        exact (List.mem_erase_of_ne hji).mpr hs
      · exact (hs' j).mpr (.inl hs)
    · exact absurd he hji
    · exact .inr hP

/-- While a holder entry is free the lock leaves the stalled-lock list. -/
theorem unstalls (hf : holderFree t.htu = true) : t.htu.stalled = h.htu.stalled.erase i := by
  obtain ⟨-, hs⟩ | ⟨hn, -⟩ := hp.outcome
  · exact hs
  · rw [hf] at hn
    cases hn

/-- Only the lock itself can become stalled. -/
theorem stalled_subset {j : LockIndex} (hj : j ∈ t.htu.stalled) : j ∈ h.htu.stalled ∨ j = i := by
  obtain ⟨-, hs⟩ | ⟨-, hs⟩ := hp.outcome
  · exact .inl (List.mem_of_mem_erase (hs ▸ hj))
  · exact (hs j).mp hj

end Evaluated

/-! ### Evaluations one after another, and the stalled-lock pass -/

/-- What evaluations of some locks and the stalled-lock pass come to (R13). -/
structure Passed (locks : LockIndex → Prop) (h t : Hw) : Prop where
  offering : Offering (fun i => locks i ∨ i ∈ h.htu.stalled) h t
  settles : ∀ P : LockIndex → Prop, (∀ j, offerDue j h.htu → j ∈ h.htu.stalled ∨ locks j ∨ P j) →
    ∀ j, offerDue j t.htu → j ∈ t.htu.stalled ∨ P j
  emptied : holderFree t.htu = true → t.htu.stalled = []

/-- The locks of a list evaluated one after another (R9). -/
theorem evaluateAll_passed (l : List LockIndex) (h : Hw) :
    Offering (· ∈ l) h (l.foldl (fun g i => evaluate i g) h)
      ∧ (∀ P : LockIndex → Prop, (∀ j, offerDue j h.htu → j ∈ h.htu.stalled ∨ j ∈ l ∨ P j) →
        ∀ j, offerDue j (l.foldl (fun g i => evaluate i g) h).htu →
          j ∈ (l.foldl (fun g i => evaluate i g) h).htu.stalled ∨ P j)
      ∧ ∀ j ∈ (l.foldl (fun g i => evaluate i g) h).htu.stalled, j ∈ h.htu.stalled ∨ j ∈ l := by
  induction l generalizing h with
  | nil => exact ⟨Offering.refl h, fun P hd j hj => (hd j hj).imp_right (·.resolve_left List.not_mem_nil),
      fun _ => .inl⟩
  | cons i l ih =>
    have he := evaluate_evaluated i h
    obtain ⟨ho, hd, hs⟩ := ih (evaluate i h)
    refine ⟨(he.offering.mono fun j hj => by simp [hj]).trans (ho.mono fun j hj => List.mem_cons_of_mem i hj),
      fun P hP => hd P fun j hj => he.settles (P := fun j => j ∈ l ∨ P j) (fun j hj => ?_) j hj, fun j hj => ?_⟩
    · simpa [or_assoc] using hP j hj
    · obtain hj | hj := hs j hj
      · exact (he.stalled_subset hj).imp_right fun hi => by simp [hi]
      · exact .inr (List.mem_cons_of_mem i hj)

/-- The pass over some stalled locks (R13). -/
theorem pass_passed (l : List LockIndex) (h : Hw) :
    Offering (· ∈ l) h (l.foldl (fun g i => if holderFree g.htu then evaluate i g else g) h)
      ∧ (∀ P : LockIndex → Prop, (∀ j, offerDue j h.htu → j ∈ h.htu.stalled ∨ P j) →
        ∀ j, offerDue j (l.foldl (fun g i => if holderFree g.htu then evaluate i g else g) h).htu →
          j ∈ (l.foldl (fun g i => if holderFree g.htu then evaluate i g else g) h).htu.stalled ∨ P j)
      ∧ (holderFree (l.foldl (fun g i => if holderFree g.htu then evaluate i g else g) h).htu = true →
        (l.foldl (fun g i => if holderFree g.htu then evaluate i g else g) h).htu.stalled = h.htu.stalled.diff l) := by
  induction l generalizing h with
  | nil => exact ⟨Offering.refl h, fun _ hd => hd, fun _ => rfl⟩
  | cons i l ih =>
    rw [List.foldl_cons]
    by_cases hf : holderFree h.htu = true
    · rw [if_pos hf]
      have he := evaluate_evaluated i h
      obtain ⟨ho, hd, hs⟩ := ih (evaluate i h)
      refine ⟨(he.offering.mono fun j hj => by simp [hj]).trans (ho.mono fun j hj => List.mem_cons_of_mem i hj),
        fun P hP => hd P fun j hj => he.settles (fun j hj => ?_) j hj, fun hfree => ?_⟩
      · exact (hP j hj).imp_right .inr
      · have hfe : holderFree (evaluate i h).htu = true := by
          by_contra hn
          rw [ho.full (Bool.eq_false_iff.mpr hn)] at hfree
          cases hfree
        rw [hs hfree, he.unstalls hfe, List.diff_cons]
    · rw [if_neg hf]
      obtain ⟨ho, hd, hs⟩ := ih h
      refine ⟨ho.mono fun j hj => List.mem_cons_of_mem i hj, hd, fun hfree => ?_⟩
      rw [ho.full (Bool.eq_false_iff.mpr hf)] at hfree
      cases hfree

theorem diff_self (l : List LockIndex) : l.diff l = [] := by
  induction l with
  | nil => rfl
  | cons i l ih => rw [List.diff_cons, List.erase_cons_head, ih]

/-- Some locks evaluated, and the stalled-lock pass that follows (R13, R54). -/
theorem evaluations_passed (l : List LockIndex) (h : Hw) :
    Passed (· ∈ l) h (stalledPass (l.foldl (fun g i => evaluate i g) h)) := by
  obtain ⟨ho, hd, hs⟩ := evaluateAll_passed l h
  generalize l.foldl (fun g i => evaluate i g) h = g at ho hd hs
  obtain ⟨ho', hd', hs'⟩ := pass_passed g.htu.stalled g
  refine ⟨(ho.mono fun i => .inl).trans (ho'.mono fun i hi => (hs i hi).symm), fun P hP => hd' P (hd P hP),
    fun hf => (hs' hf).trans (diff_self _)⟩

/-- No lock that was visited has an offer due then (R13). -/
theorem Passed.noOfferDue {locks : LockIndex → Prop} {h t : Hw} (hp : Passed locks h t) {i : LockIndex}
    (hi : locks i ∨ i ∈ h.htu.stalled) : noOfferDue i t := by
  rw [noOfferDue_iff]
  intro hd
  rw [← holderFree_eq_false]
  by_contra hn
  have hempty := hp.emptied (Bool.not_eq_false _ ▸ hn)
  have hs := hp.settles (fun j => ¬(locks j ∨ j ∈ h.htu.stalled)) (fun j _ => by tauto) i hd
  rw [hempty] at hs
  exact hs.elim (fun hm => absurd hm List.not_mem_nil) (· hi)

theorem Passed.full {locks : LockIndex → Prop} {h t : Hw} (hp : Passed locks h t) (hs : t.htu.stalled ≠ []) :
    512 ≤ t.htu.holders.length := by
  rw [← holderFree_eq_false]
  by_contra hn
  exact hs (hp.emptied (Bool.not_eq_false _ ▸ hn))

/-! ### The evaluations that follow a claim -/

theorem mem_insertIndex {i j : LockIndex} {l : List LockIndex} : j ∈ insertIndex i l ↔ j = i ∨ j ∈ l := by
  induction l with
  | nil => simp [insertIndex]
  | cons k l ih =>
    unfold insertIndex
    split
    · simp
    · split
      · next he => simp [he]
      · rw [List.mem_cons, ih, List.mem_cons]
        tauto

@[simp] theorem mem_ascending {j : LockIndex} {l : List LockIndex} : j ∈ ascending l ↔ j ∈ l := by
  induction l with
  | nil => rfl
  | cons i l ih => rw [ascending, List.foldr_cons, mem_insertIndex, ← ascending, ih, List.mem_cons]

theorem Passed.of_iff {locks locks' : LockIndex → Prop} {h t : Hw} (hl : ∀ i, locks i ↔ locks' i)
    (hp : Passed locks h t) : Passed locks' h t := by
  obtain rfl : locks = locks' := funext fun i => propext (hl i)
  exact hp

/-- A home that serves evaluates the locks a claim changed, and no other home evaluates any (R9). -/
theorem evaluateChanged_cases (touched : List LockIndex) (h : Hw) :
    (h.home = .serving ∧ touched ≠ [] ∧ Passed (· ∈ touched) h (evaluateChanged touched h))
      ∨ ((h.home ≠ .serving ∨ touched = []) ∧ evaluateChanged touched h = h) := by
  unfold evaluateChanged
  split
  · next hc => exact .inl ⟨hc.1, hc.2, (evaluations_passed _ h).of_iff fun _ => mem_ascending⟩
  · next hc => exact .inr ⟨by tauto, rfl⟩

theorem evaluateTouched_cases (touched : List LockIndex) (h : Hw) :
    (h.home = .serving ∧ Passed (· ∈ touched) h (evaluateTouched touched h))
      ∨ (h.home ≠ .serving ∧ evaluateTouched touched h = h) := by
  unfold evaluateTouched
  split
  · next hc => exact .inl ⟨hc, evaluations_passed _ h⟩
  · next hc => exact .inr ⟨hc, rfl⟩

/-- The evaluations that follow a claim, as the statements give them (R9, R13). -/
theorem evaluateChanged_after {locks : LockIndex → Prop} (touched : List LockIndex) (hl : ∀ i, i ∈ touched ↔ locks i)
    (h : Hw) : evaluatedAfter locks h (evaluateChanged touched h) := by
  have hex : (∃ i, locks i) ↔ touched ≠ [] := by
    rw [← not_iff_not, not_exists, not_not, List.eq_nil_iff_forall_not_mem]
    exact forall_congr' fun i => not_congr (hl i).symm
  have hnone : (∀ i, ¬locks i) ↔ touched = [] := by rw [← not_exists, hex, not_not]
  unfold evaluatedAfter
  dsimp only
  rw [hex, hnone]
  obtain ⟨hs, ht, hp⟩ | ⟨hn, he⟩ := evaluateChanged_cases touched h
  · have hp := hp.of_iff hl
    exact ⟨fun _ _ => ⟨hp.offering.made, evaluateChanged_offersTaken h touched, fun i hi => hp.noOfferDue hi, hp.full⟩,
      fun hc => hc.elim (absurd hs) (absurd · ht), hp.offering.beside⟩
  · rw [he]
    exact ⟨fun hs ht => hn.elim (absurd hs) (absurd · ht), fun _ => rfl, besideTables.refl h⟩

end Sys2Proof.Machine
end

section
/-! The waits of a home (R12, R13): a lock that has an offer due is stalled, or touched by the purge in progress. -/

namespace Sys2Proof.Machine

/-- At a home that serves, each lock that has an offer due is stalled, or is touched by the purge in progress; and with no
purge no lock is stalled while a holder entry is free. -/
structure Waits (h : Hw) : Prop where
  due : h.home = .serving → ∀ i, offerDue i h.htu → i ∈ h.htu.stalled ∨ ∃ g, h.htu.purge = some g ∧ i ∈ g.touched
  emptied : h.home = .serving → h.htu.purge = none → holderFree h.htu = true → h.htu.stalled = []

/-- From `h` to `t` no lock gains or loses an offer that is due, and nothing else of the waits alters. -/
structure SameDue (h t : Hw) : Prop where
  home : t.home = h.home
  due : ∀ i, offerDue i t.htu ↔ offerDue i h.htu
  stalled : t.htu.stalled = h.htu.stalled
  length : t.htu.holders.length = h.htu.holders.length
  purge : t.htu.purge = h.htu.purge
  engaged : t.htu.engaged = h.htu.engaged

theorem SameDue.refl (h : Hw) : SameDue h h := ⟨rfl, fun _ => Iff.rfl, rfl, rfl, rfl, rfl⟩

theorem SameDue.trans {h g t : Hw} (h1 : SameDue h g) (h2 : SameDue g t) : SameDue h t :=
  ⟨h2.home.trans h1.home, fun i => (h2.due i).trans (h1.due i), h2.stalled.trans h1.stalled, h2.length.trans h1.length,
    h2.purge.trans h1.purge, h2.engaged.trans h1.engaged⟩

theorem SameDue.free {h t : Hw} (hs : SameDue h t) : holderFree t.htu = holderFree h.htu := by
  rw [holderFree, holderFree, hs.length]

theorem Waits.of_same {h t : Hw} (hs : SameDue h t) (hp : Waits h) : Waits t where
  due hh i hd := by
    rw [hs.stalled, hs.purge]
    exact hp.due (hs.home ▸ hh) i ((hs.due i).mp hd)
  emptied hh hg hf := by
    rw [hs.stalled]
    exact hp.emptied (hs.home ▸ hh) (hs.purge ▸ hg) (hs.free ▸ hf)

/-- Offers that are due are read off the queues, and off the locks and the modes of the holders. -/
theorem offerDue_iff_of_tables {t u : Htu} {i : LockIndex} (hw : headWaiter i u = headWaiter i t)
    (hh : (holdersOf i u).map (·.mode) = (holdersOf i t).map (·.mode)) : offerDue i u ↔ offerDue i t := by
  have hc : ∀ m, compatible m (holdersOf i u) = compatible m (holdersOf i t) := fun m => by
    have := congrArg (fun l => l.all fun x => m = .shared ∧ x = .shared) hh
    simpa [compatible, List.all_map, Function.comp_def] using this
  simp only [offerDue, hw, hc]

theorem SameDue.of_tables {h t : Hw} (hh : t.home = h.home) (he : t.htu.holders = h.htu.holders)
    (hw : t.htu.waiters = h.htu.waiters) (hs : t.htu.stalled = h.htu.stalled) (hg : t.htu.purge = h.htu.purge)
    (hn : t.htu.engaged = h.htu.engaged) : SameDue h t :=
  ⟨hh, fun i => by simp only [offerDue, headWaiter, holdersOf, he, hw], hs, by rw [he], hg, hn⟩

/-- Holders that keep their locks and modes. -/
theorem offerDue_map {t : Htu} {f : Holder → Holder} (hf : ∀ e, (f e).index = e.index ∧ (f e).mode = e.mode)
    (i : LockIndex) : offerDue i { t with holders := t.holders.map f } ↔ offerDue i t := by
  refine offerDue_iff_of_tables rfl ?_
  rw [holdersOf, List.filter_map, List.map_map]
  have hm : (fun e => e.mode) ∘ f = fun e : Holder => e.mode := funext fun e => (hf e).2
  have hi : (fun e => decide (e.index = i)) ∘ f = fun e : Holder => decide (e.index = i) :=
    funext fun e => by simp [(hf e).1]
  rw [hm, hi]
  rfl

/-- The posting and the withdrawing of offers make no offer due. -/
theorem sameDue_post (h : Hw) : PostKept (SameDue h) where
  quiet {g t} hq hp := by
    obtain ⟨hs, hh, -⟩ := hq
    refine hp.trans (SameDue.of_tables (congrArg (·.station.home) hs) ?_ ?_ ?_ ?_ ?_) <;> rw [hh]
  claimed _ _ hp := hp.trans (SameDue.of_tables rfl (by simp) (by simp) (by simp) (by simp) (by simp))
  postedUp _ hp := hp.trans (SameDue.of_tables rfl rfl rfl rfl rfl rfl)
  postedDown hp := hp.trans (SameDue.of_tables rfl rfl rfl rfl rfl rfl)
  backlog _ hp := hp.trans (SameDue.of_tables rfl rfl rfl rfl rfl rfl)
  flagged {g f} _ hf hp := by
    refine hp.trans ⟨rfl, offerDue_map fun e => ?_, rfl, by simp [Hw.setHtu], rfl, rfl⟩
    obtain he | he := hf e <;> rw [he] <;> simp

/-! ### Evaluations -/

/-- The evaluations that follow a claim settle the waits, where every lock that has an offer due is stalled or among those
the claim changed. -/
theorem evaluateChanged_waits {touched : List LockIndex} {h : Hw}
    (hd : h.home = .serving → ∀ i, offerDue i h.htu → i ∈ h.htu.stalled ∨ i ∈ touched)
    (hs : touched = [] → h.home = .serving → holderFree h.htu = true → h.htu.stalled = []) :
    Waits (evaluateChanged touched h) := by
  obtain ⟨hh, -, hp⟩ | ⟨hn, he⟩ := evaluateChanged_cases touched h
  · refine ⟨fun _ i hi => .inl ?_, fun _ _ => hp.emptied⟩
    have := hp.settles (fun _ => False) (fun j hj => by simpa using hd hh j hj) i hi
    simpa using this
  · rw [he]
    refine ⟨fun hh i hi => .inl ?_, fun hh _ => ?_⟩
    · have ht : touched = [] := hn.resolve_left (not_not.mpr hh)
      simpa [ht] using hd hh i hi
    · exact hs (hn.resolve_left (not_not.mpr hh)) hh

/-! ### The changes of a decision -/

/-- A filter that drops none of the entries another one keeps. -/
theorem filter_filter_of_imp {α : Type} {l : List α} {p q : α → Bool} (h : ∀ a ∈ l, p a = true → q a = true) :
    (l.filter q).filter p = l.filter p := by
  rw [List.filter_filter]
  refine List.filter_congr fun a ha => ?_
  cases hp : p a
  · rfl
  · rw [h a ha hp]
    rfl

/-- Entries of other locks removed make no offer due. -/
theorem offerDue_filter {t : Htu} {i : LockIndex} {p : Waiter → Bool} {q : Holder → Bool}
    (hp : ∀ w ∈ t.waiters, w.index = i → p w = true) (hq : ∀ e ∈ t.holders, e.index = i → q e = true) :
    offerDue i { t with waiters := t.waiters.filter p, holders := t.holders.filter q } ↔ offerDue i t := by
  refine offerDue_iff_of_tables ?_ ?_
  · rw [headWaiter, headWaiter, ← List.head?_filter, ← List.head?_filter,
      filter_filter_of_imp fun w hw hi => hp w hw (of_decide_eq_true hi)]
  · rw [holdersOf, holdersOf, filter_filter_of_imp fun e he hi => hq e he (of_decide_eq_true hi)]

/-- The locks a decision does not touch keep their queues and their holders. -/
theorem change_untouched {t : Htu} {c : Changes} {j : LockIndex} (hj : j ∉ c.touched) :
    headWaiter j (t.change c) = headWaiter j t ∧ holdersOf j (t.change c) = holdersOf j t := by
  simp only [Changes.touched, List.mem_append, List.mem_map, Option.mem_toList, not_or, not_exists, not_and] at hj
  obtain ⟨⟨⟨⟨hdw, hdh⟩, hah⟩, haw⟩, hsh⟩ := hj
  have hwait : (t.change c).waiters.filter (·.index = j) = t.waiters.filter (·.index = j) := by
    have hadd : c.addWaiter.toList.filter (·.index = j) = [] :=
      List.filter_eq_nil_iff.mpr fun w hw hi => haw w (Option.mem_toList.mp hw) (of_decide_eq_true hi)
    simp only [Htu.change, Htu.without, List.filter_append, hadd, List.append_nil]
    refine filter_filter_of_imp fun w _ hi => decide_eq_true fun hm => hdw w hm (of_decide_eq_true hi)
  have hkept : (t.holders.filter (· ∉ c.dropHolders)).filter (·.index = j) = t.holders.filter (·.index = j) :=
    filter_filter_of_imp fun e _ hi => decide_eq_true fun hm => hdh e hm (of_decide_eq_true hi)
  have hadd : c.addHolder.toList.filter (·.index = j) = [] :=
    List.filter_eq_nil_iff.mpr fun w hw hi => hah w (Option.mem_toList.mp hw) (of_decide_eq_true hi)
  constructor
  · rw [headWaiter, headWaiter, ← List.head?_filter, ← List.head?_filter, hwait]
  · simp only [holdersOf, Htu.change, Htu.without, List.filter_append, hadd, List.append_nil]
    split
    · next e hce =>
      rw [← hkept]
      generalize t.holders.filter (· ∉ c.dropHolders) = l
      induction l with
      | nil => rfl
      | cons x l ih =>
        rw [List.map_cons, List.filter_cons, List.filter_cons, ih]
        by_cases hx : x = e
        · have hne : e.index ≠ j := hsh e hce
          simp [hx, hne]
        · simp [hx]
    · exact hkept

/-- A decision that touches no lock leaves the tables. -/
theorem change_untouching {t : Htu} {c : Changes} (hc : c.touched = []) : (t.change c).holders = t.holders := by
  simp only [Changes.touched, List.append_eq_nil_iff, List.map_eq_nil_iff, Option.toList_eq_nil_iff] at hc
  obtain ⟨⟨⟨⟨hdw, hdh⟩, hah⟩, haw⟩, hsh⟩ := hc
  simp [Htu.change, Htu.without, hdh, hah, hsh]

/-- What leaving the awaited set does to a home (R137). -/
theorem unawait_cases (s : StationId) (h : Hw) :
    ((unawait s h).scu = h.scu ∨ h.scu.station = .rebuilding ∧ (unawait s h).scu.station = .online)
      ∧ (unawait s h).htu.holders = h.htu.holders ∧ (unawait s h).htu.waiters = h.htu.waiters
      ∧ (unawait s h).htu.stalled = h.htu.stalled ∧ (unawait s h).htu.purge = h.htu.purge
      ∧ (unawait s h).htu.engaged = h.htu.engaged := by
  unfold unawait
  split
  · next hc =>
    dsimp only
    split
    · refine ⟨.inr ⟨HomeKept.rebuilding_of_home hc.1, ?_⟩, ?_, ?_, ?_, ?_, ?_⟩ <;> simp
    · exact ⟨.inl rfl, rfl, rfl, rfl, rfl, rfl⟩
  · exact ⟨.inl rfl, rfl, rfl, rfl, rfl, rfl⟩

/-- What leaving the awaited set does to the waits: the home serves, or nothing alters. -/
theorem unawaitOption_cases (s : Option StationId) (h : Hw) :
    SameDue h (unawaitOption s h)
      ∨ h.home = .rebuilding ∧ (unawaitOption s h).home = .serving ∧ SameDue { h with scu := (unawaitOption s h).scu }
          (unawaitOption s h) := by
  unfold unawaitOption
  split
  · next p =>
    obtain ⟨hs | ⟨hr, ho⟩, h1, h2, h3, h4, h5⟩ := unawait_cases p h
    · exact .inl (SameDue.of_tables (congrArg (·.station.home) hs) h1 h2 h3 h4 h5)
    · exact .inr ⟨by rw [Hw.home, hr]; rfl, by rw [Hw.home, ho]; rfl, SameDue.of_tables rfl h1 h2 h3 h4 h5⟩
  · exact .inl (SameDue.refl h)

theorem not_offerDue_of_waitless {t : Htu} (ht : t.waiters = []) (i : LockIndex) : ¬offerDue i t := by
  rintro ⟨w, hw, -⟩
  rw [headWaiter, ht] at hw
  cases hw

/-- A decision applied leaves the waits lawful (R54). -/
theorem applyChanges_waits {c : Changes} {hand : Hw → Hw} {h : Hw} (hf : ∀ g, Quiet g (hand g))
    (hfree : h.htu.engaged = .free) (hg : h.htu.purge = none) (hr : waitless h.home (h.htu.change c)) (hp : Waits h) :
    Waits (applyChanges c hand h) := by
  unfold applyChanges
  dsimp only
  generalize hu : unawaitOption c.unawait (h.setHtu (h.htu.change c)) = u
  have hcase := unawaitOption_cases c.unawait (h.setHtu (h.htu.change c))
  rw [hu] at hcase
  have hsame : SameDue u (withdrawOffers c.dropHolders (hand u)) := by
    have huf : (hand u).htu.engaged = .free := by
      rw [(hf u).2.1]
      obtain hs | ⟨-, -, hs⟩ := hcase <;> exact hs.engaged.trans hfree
    exact (sameDue_post u).withdrawOffers _ (.inl huf) ((sameDue_post u).quiet (hf u) (SameDue.refl u))
  generalize withdrawOffers c.dropHolders (hand u) = w at hsame
  obtain hs | ⟨hreb, -, hs⟩ := hcase
  · have hs := hs.trans hsame
    have hho : w.home = h.home := hs.home
    refine evaluateChanged_waits (fun hh i hi => ?_) fun ht hh hfr => ?_
    · by_cases hi' : i ∈ c.touched
      · exact .inr hi'
      · obtain ⟨hw, hhd⟩ := change_untouched (t := h.htu) hi'
        have hd : offerDue i h.htu := (offerDue_iff_of_tables hw (by rw [hhd])).mp ((hs.due i).mp hi)
        obtain hm | ⟨g, hpg, -⟩ := hp.due (hho ▸ hh) i hd
        · exact .inl (hs.stalled ▸ hm)
        · rw [hg] at hpg
          cases hpg
    · rw [hs.stalled]
      refine hp.emptied (hho ▸ hh) hg ?_
      rw [hs.free, holderFree] at hfr
      rwa [holderFree, ← change_untouching ht]
  · obtain ⟨hw, hst⟩ := hr hreb
    have hs := hs.trans hsame
    refine evaluateChanged_waits (fun _ i hi => ?_) fun _ _ _ => hs.stalled.trans hst
    exact absurd ((hs.due i).mp hi) (not_offerDue_of_waitless hw i)

/-! ### GRANT outcomes -/

theorem applyGrantOutcome_waits {i : LockIndex} {s : StationId} {n : SlotId} {a : Bool} {h : Hw}
    (hg : h.htu.purge = none) (hp : Waits h) : Waits (applyGrantOutcome i s n a h) := by
  unfold applyGrantOutcome
  split
  · refine evaluateChanged_waits (fun hh j hj => ?_) fun hc => by cases hc
    by_cases hji : j = i
    · exact .inr (by simp [hji])
    · have hd : offerDue j h.htu := by
        cases a
        · have hfil := offerDue_filter (t := h.htu) (i := j) (p := fun _ => true) (q := fun e => !isOfferTo i s n e)
            (fun _ _ _ => rfl) fun e _ he => by simp [isOfferTo, he, hji]
          rw [List.filter_true] at hfil
          exact hfil.mp hj
        · exact (offerDue_map (fun e => by split <;> exact ⟨rfl, rfl⟩) j).mp hj
      obtain hm | ⟨g, hpg, -⟩ := hp.due (by exact hh) j hd
      · exact .inl hm
      · rw [hg] at hpg
        cases hpg
  · exact hp

/-! ### Purges -/

theorem startPurge_waits {s : StationId} {ev rb : Bool} {rest : List StationId} {h : Hw} (hg : h.htu.purge = none)
    (hp : Waits h) : Waits (startPurge s ev rb rest h) := by
  unfold startPurge
  dsimp only
  generalize hu : h.setHtu _ = u
  have hpu : u.htu.purge.isSome = true := by rw [← hu]; rfl
  have hs := (sameDue_post u).withdrawOffers (h.htu.holders.filter (·.station = s)) (.inr (.inl hpu)) (SameDue.refl u)
  refine Waits.of_same hs ?_
  rw [← hu]
  refine ⟨fun hh i hi => ?_, fun _ hc => by cases hc⟩
  by_cases ht : i ∈ (h.htu.waiters.filter (·.station = s)).map (·.index)
      ++ (h.htu.holders.filter (·.station = s)).map (·.index)
  · exact .inr ⟨_, rfl, mem_ascending.mpr ht⟩
  · simp only [List.mem_append, List.mem_map, List.mem_filter, decide_eq_true_eq, not_or, not_exists, not_and] at ht
    obtain ⟨htw, hth⟩ := ht
    have hfil := offerDue_filter (t := h.htu) (i := i) (p := (·.station ≠ s)) (q := (·.station ≠ s))
      (fun w hw hwi => decide_eq_true fun hc => htw w ⟨hw, hc⟩ hwi)
      (fun e he hei => decide_eq_true fun hc => hth e ⟨he, hc⟩ hei)
    have hd : offerDue i h.htu := hfil.mp hi
    obtain hm | ⟨g, hpg, -⟩ := hp.due (by exact hh) i hd
    · exact .inl hm
    · rw [hg] at hpg
      cases hpg

/-- The home serves after its rebuild, without waits. -/
theorem waits_served {h t : Hw} (hr : h.home = .rebuilding) (hl : waitless h.home h.htu)
    (hw : t.htu.waiters = h.htu.waiters) (hs : t.htu.stalled = h.htu.stalled) : Waits t := by
  obtain ⟨hw', hs'⟩ := hl hr
  exact ⟨fun _ i hi => absurd hi (not_offerDue_of_waitless (hw.trans hw') i), fun _ _ _ => hs.trans hs'⟩

theorem endPurge_waits {p : Purge} {h : Hw} (hg : h.htu.purge = some p) (hl : Lawful waitless h) (hp : Waits h) :
    Waits (endPurge p h) := by
  rw [PurgeKept.endPurge_eq]
  have hsame : SameDue h (refill Config.postedLimit (queueEvict p h)) := by
    have hq : SameDue h (queueEvict p h) := by
      unfold queueEvict
      split
      · exact SameDue.of_tables rfl rfl rfl rfl rfl rfl
      · exact SameDue.refl h
    exact (sameDue_post h).refill _ (.inr (.inl (by simp [hg]))) hq
  have hfreed : Lawful waitless (PurgeKept.purgeFreed p h) := rebuild_table.purge_kept.freed hg hl
  have hev : Waits (evaluateTouched p.touched (PurgeKept.purgeFreed p h))
      ∧ (evaluateTouched p.touched (PurgeKept.purgeFreed p h)).htu.purge = none := by
    obtain ⟨hh, hpass⟩ | ⟨hn, he⟩ := evaluateTouched_cases p.touched (PurgeKept.purgeFreed p h)
    · refine ⟨⟨fun _ i hi => .inl ?_, fun _ _ => hpass.emptied⟩, hpass.offering.beside.2.1⟩
      have := hpass.settles (fun _ => False) (fun j hj => ?_) i hi
      · simpa using this
      · obtain hm | ⟨g, hpg, hm⟩ := hp.due (hsame.home ▸ hh) j ((hsame.due j).mp hj)
        · exact .inl (hsame.stalled ▸ hm)
        · obtain rfl := Option.some.inj (hg.symm.trans hpg)
          exact .inr (.inl hm)
    · rw [he]
      exact ⟨⟨fun hc => absurd hc hn, fun hc => absurd hc hn⟩, rfl⟩
  obtain ⟨hle, -⟩ := rebuild_table.purge_kept.evaluateTouched p.touched hfreed rfl
  generalize evaluateTouched p.touched (PurgeKept.purgeFreed p h) = e at hev hle
  have raised : ∀ ev, SameDue e (raiseEvent ev e) := fun ev =>
    SameDue.of_tables (by simp [Hw.home]) (by simp) (by simp) (by simp) (by simp) (by simp)
  unfold continueRebuild
  split
  · dsimp only
    split
    · exact startPurge_waits ((raised _).purge.trans hev.2) (hev.1.of_same (raised _))
    · unfold endRebuild
      split
      · next hs =>
        have hr : e.home = .rebuilding := by
          rw [raiseEvent_scu] at hs
          rw [Hw.home, hs]
          rfl
        exact waits_served hr hle.2.1 (by simp) (by simp)
      · exact hev.1.of_same (raised _)
  · exact hev.1

/-! ### Every command -/

/-- The waits, beside what they rest on. -/
def Waiting (h : Hw) : Prop := Lawful waitless h ∧ Waits h

theorem Waits.of_tables {h t : Hw} (hp : Waits h) (hh : t.home = h.home) (he : t.htu.holders = h.htu.holders)
    (hw : t.htu.waiters = h.htu.waiters) (hs : t.htu.stalled = h.htu.stalled) (hg : t.htu.purge = h.htu.purge) :
    Waits t where
  due hc i hi := by
    rw [hs, hg]
    refine hp.due (hh ▸ hc) i ?_
    simpa only [offerDue, headWaiter, holdersOf, he, hw] using hi
  emptied hc hn hf := by
    rw [hs]
    exact hp.emptied (hh ▸ hc) (hg ▸ hn) (by rwa [holderFree, ← he])

theorem takeEngaged_home (h : Hw) : (takeEngaged h).home = h.home := by
  obtain hc | ⟨_, -, -, -, -, -, hc⟩ := takeEngaged_cases h
  · rw [hc]
  · rw [hc]
    rfl

theorem Waits.decided {h : Hw} (hp : Waits h) : Waits (takeEngaged h) := by
  obtain ⟨d, hd⟩ := takeEngaged_htu h
  exact hp.of_tables (takeEngaged_home h) (by rw [hd]) (by rw [hd]) (by rw [hd]) (by rw [hd])

theorem waiting_take : TakeKept Waiting where
  quiet {h t} hq hp := by
    have k := rebuild_table.purge_kept
    exact ⟨k.quiet hq hp.1, hp.2.of_same ((sameDue_post h).quiet hq (SameDue.refl h))⟩
  claimed {h c} hc hx hp :=
    ⟨rebuild_table.purge_kept.claimed hc hx hp.1, hp.2.of_same ((sameDue_post h).claimed hc hx (SameDue.refl h))⟩
  postedUp {h} hl hp :=
    ⟨rebuild_table.purge_kept.postedUp hl hp.1, hp.2.of_same ((sameDue_post h).postedUp hl (SameDue.refl h))⟩
  postedDown {h} hp :=
    ⟨rebuild_table.purge_kept.postedDown hp.1, hp.2.of_same ((sameDue_post h).postedDown (SameDue.refl h))⟩
  backlog {h} l hp :=
    ⟨rebuild_table.purge_kept.backlog l hp.1, hp.2.of_same ((sameDue_post h).backlog l (SameDue.refl h))⟩
  flagged {h f} ho hf hp :=
    ⟨rebuild_table.purge_kept.flagged ho hf hp.1, hp.2.of_same ((sameDue_post h).flagged ho hf (SameDue.refl h))⟩
  awaited a ha hp := ⟨rebuild_table.purge_kept.awaited a ha hp.1, hp.2.of_tables rfl rfl rfl rfl rfl⟩
  online {h} hs hp :=
    ⟨rebuild_table.purge_kept.online hs hp.1, waits_served (by rw [Hw.home, hs]; rfl) hp.1.2.1 rfl rfl⟩
  request {h} r hf hp :=
    ⟨rebuild_table.purge_kept.serveSelfRequest r hf hp.1,
      applyChanges_waits (TableKept.quiet_handResponse _) hf (hp.1.1.claims.unpurged (by simp [hf]))
        (rebuild_table.decided r hp.1.2.1) hp.2⟩
  outcome i s n a hf hp :=
    ⟨rebuild_table.purge_kept.applyGrantOutcome i s n a hf hp.1,
      applyGrantOutcome_waits (hp.1.1.claims.unpurged (by simp [hf])) hp.2⟩
  purging s ev rb rest hf hi ha hp :=
    ⟨rebuild_table.purge_kept.startPurge s ev rb rest hf hi ha hp.1,
      startPurge_waits (hp.1.1.claims.unpurged (by simp [hf])) hp.2⟩
  arrived hf ha hc hp := ⟨rebuild_table.purge_kept.arrived hf ha hc hp.1, hp.2.of_tables rfl rfl rfl rfl rfl⟩
  headed hf hc hl hp := ⟨rebuild_table.purge_kept.headed hf hc hl hp.1, hp.2.of_tables rfl rfl rfl rfl rfl⟩
  metArrived {h rest} hf ha hp :=
    ⟨rebuild_table.purge_kept.metArrived hf ha hp.1,
      Waits.decided (hp.2.of_tables (h := h) rfl rfl rfl rfl rfl)⟩
  met {h rest} hf hc hp :=
    ⟨rebuild_table.purge_kept.met hf hc hp.1, Waits.decided (hp.2.of_tables (h := h) rfl rfl rfl rfl rfl)⟩
  decided hp := ⟨rebuild_table.purge_kept.decided hp.1, hp.2.decided⟩

/-- The home freed at a completion where it answered makes its decision, and its waits stay lawful. -/
theorem answered_waits {h g : Hw} {r : TxRecord} {x : Transaction} (o : BusOutcome) (hr : h.lbc.record = some r)
    (hph : r.phase = .completion) (hrole : r.role = .responder) (hx : recordRequest r = some x) (hk : x.kind ≠ .grant)
    (hg : HomeFrame (closeRecord h) g) (hp : Waiting h) :
    Waits ((if o = .void then id else applyDecision g.htu.decision) (g.setHtu g.htu.freed)) := by
  have hs := hp.1.1.answered hr hph hrole hx hk hg
  have hpurge : g.htu.purge = none := hs.claims.unpurged (by simp [Hw.setHtu])
  obtain ⟨⟨hho, -⟩, hh, -, -⟩ := hg
  have hh : g.htu = h.htu := hh
  have hho : g.home = h.home := hho
  have hfreed : Waits (g.setHtu g.htu.freed) :=
    hp.2.of_tables hho (by rw [hh]; rfl) (by rw [hh]; rfl) (by rw [hh]; rfl) (by rw [hh]; rfl)
  split
  · exact hfreed
  · unfold applyDecision
    split
    · next d hd =>
      refine applyChanges_waits (fun g => Quiet.refl g) rfl hpurge ?_ hfreed
      rw [hh] at hd
      have hdec := hp.1.2.2 d hd
      rw [← hho, ← hh] at hdec
      exact rebuild_table.change_of_eq d.changes rfl rfl rfl hdec
    · exact hfreed

theorem Waits.of_idle {h : Hw} (hh : h.home = .inactive) : Waits h := by
  refine ⟨fun hc => ?_, fun hc => ?_⟩ <;> rw [hh] at hc <;> cases hc

/-- A phase that touches the record only. -/
theorem Waits.of_htu {h t : Hw} (hp : Waits h) (hs : t.scu = h.scu) (hh : t.htu = h.htu) : Waits t :=
  hp.of_tables (congrArg (·.station.home) hs) (by rw [hh]) (by rw [hh]) (by rw [hh]) (by rw [hh])

/-- Every command keeps the waits of the home. -/
theorem waiting_kept : StrapKept Waiting where
  toTakeKept := waiting_take
  control hc hi hp := ⟨rebuild_table.kept.control hc hi hp.1, hp.2.of_tables hc rfl rfl rfl rfl⟩
  strapped hc hp := ⟨rebuild_table.kept.strapped hc hp.1, hp.2.of_tables (congrArg (·.home) hc) rfl rfl rfl rfl⟩
  entered st a t hj hr hst ha hp :=
    ⟨rebuild_table.kept.entered st a t hj hr hst ha hp.1, fun _ i hi => absurd hi (not_offerDue_of_waitless rfl i),
      fun _ _ _ => rfl⟩
  reset c h := ⟨rebuild_table.kept.reset c h, Waits.of_idle rfl⟩
  left h := ⟨rebuild_table.kept.left h, Waits.of_idle (by simp [Hw.home, ownLeave, StationState.home])⟩
  gone {h} hs hp := by
    refine ⟨rebuild_table.kept.gone hs hp.1, ?_⟩
    obtain hs | hs := hs
    · exact waits_served (by rw [Hw.home, hs]; rfl) hp.1.2.1 rfl rfl
    · exact hp.2.of_tables (by rw [Hw.home, Hw.home, hs]; rfl) rfl rfl rfl rfl
  expired ht hp :=
    ⟨rebuild_table.kept.expired ht hp.1, hp.2.of_tables rfl (by simp) (by simp) (by simp) (by simp)⟩
  ticked hp := ⟨rebuild_table.kept.ticked hp.1, hp.2.of_tables rfl rfl rfl rfl rfl⟩
  rounds {h} pl nl hr hp := by
    refine ⟨rebuild_table.kept.rounds pl nl hr hp.1, ?_⟩
    obtain he | ⟨w, round, c, he, -⟩ := holdRounds_cases pl nl h <;> rw [he]
    · exact hp.2
    · have hho : (wonBy w round c h).home = h.home := congrArg (·.station.home) (wonBy_scu w round c h)
      obtain ⟨hh, -⟩ | ⟨_, -, -, hh⟩ := wonBy_htu w round c h <;>
        exact hp.2.of_tables hho (by simp [hh]) (by simp [hh]) (by simp [hh]) (by simp [hh])
  requested a b hp := ⟨rebuild_table.kept.requested a b hp.1, by
    unfold readRequestPhase
    split
    · exact hp.2
    · split
      · exact hp.2.of_htu rfl rfl
      · exact hp.2⟩
  observed l hp := ⟨rebuild_table.kept.observed l hp.1, by
    unfold startObservation
    split
    · exact hp.2
    · split
      · dsimp only
        split
        · refine (waiting_take.settleArrivals hp).2.of_tables rfl ?_ ?_ ?_ ?_ <;>
            (simp only [setRecord, Hw.setHtu, Htu.meetTransaction]; split <;> rfl)
        · exact hp.2.of_htu rfl rfl
        · exact hp.2.of_htu rfl rfl
      · exact hp.2⟩
  observationClosed l hp := ⟨rebuild_table.kept.observationClosed l hp.1, by
    unfold closeObservation
    split
    · exact hp.2
    · split
      · dsimp only
        split
        · exact hp.2.of_htu rfl rfl
        · have hd := hp.2.decided
          unfold answerGrant
          split
          · split
            · exact hd.of_htu rfl rfl
            · exact hd.of_htu rfl rfl
          · exact hd.of_htu rfl rfl
      · exact hp.2⟩
  responded l hp := ⟨rebuild_table.kept.responded l hp.1, by
    unfold readResponsePhase
    split
    · split
      · exact hp.2.of_htu rfl rfl
      · exact hp.2
    · exact hp.2⟩
  closed hr hph hrole hp := ⟨rebuild_table.kept.closed hr hph hrole hp.1, hp.2.of_htu rfl rfl⟩
  answered o hr hph hrole hx hk hg hp := waiting_take.takeWaiting _
    ⟨rebuild_table.answeredWork o hr hph hrole hx hk hg hp.1, answered_waits o hr hph hrole hx hk hg hp⟩
  released hr hrole hx hk hp he hn hcs hg := waiting_take.takeWaiting _
    ⟨⟨hp.1.1.released hr hrole hx hk he hn hcs hg.1.1, TableLaw.tables_undecided (rebuild_table.of_eq hg.1.2.1 rfl rfl rfl) rfl⟩,
      hg.2.of_tables rfl rfl rfl rfl rfl⟩
  finished {h} hp := by
    unfold finishPurge
    split
    · exact hp
    · next hg =>
      exact waiting_take.takeWaiting _ ⟨rebuild_table.purge_kept.endPurge hg hp.1, endPurge_waits hg hp.1 hp.2⟩

end Sys2Proof.Machine
end

section
/-! O59: the counts, the completion queue, the walker, and, at a lawful home, the capacities of its tables, its waits and
its clients. -/

namespace Sys2Proof.Machine

theorem capacityLaw_step {s t : State} (hh : homeLaw s.hw) (hl : capacityLaw s.hw) (ht : step s = .next t) :
    capacityLaw t.hw := by
  obtain ⟨⟨hst, -⟩, -⟩ := (homeLaw_iff s.hw).mp hh
  obtain ⟨h1, h2, h3⟩ := hl
  have hp : Lawful (fun _ u => withinCapacity u) s.hw := ⟨hst, ⟨h1, h2⟩, h3⟩
  obtain ⟨-, ⟨g1, g2⟩, g3⟩ := capacity_table.kept.step hp ht
  exact ⟨g1, g2, g3⟩

/-- The law of the waits is that of the locks that have an offer due, beside a rebuild without waiters. -/
theorem offerLaw_iff (h : Hw) : offerLaw h ↔ Waits h ∧ Tables waitless h := by
  have hdue : ∀ i, (∀ w, headWaiter i h.htu = some w →
      (∃ e ∈ h.htu.holders, e.index = i ∧ ¬(w.mode = .shared ∧ e.mode = .shared))
        ∨ i ∈ h.htu.stalled ∨ ∃ g, h.htu.purge = some g ∧ i ∈ g.touched)
      ↔ (offerDue i h.htu → i ∈ h.htu.stalled ∨ ∃ g, h.htu.purge = some g ∧ i ∈ g.touched) := by
    intro i
    constructor
    · rintro hl ⟨w, hw, hc⟩
      exact (hl w hw).resolve_left ((compatible_iff _ _ _).mp hc)
    · intro hl w hw
      by_cases hc : compatible w.mode (holdersOf i h.htu) = true
      · exact .inr (hl ⟨w, hw, hc⟩)
      · exact .inl (not_not.mp fun hx => hc ((compatible_iff _ _ _).mpr hx))
  have hfull : (h.htu.stalled ≠ [] → 512 ≤ h.htu.holders.length)
      ↔ (holderFree h.htu = true → h.htu.stalled = []) := by
    rw [← holderFree_eq_false, ← not_imp_not, not_not, Bool.not_eq_false]
  unfold offerLaw
  simp only [hdue, hfull]
  constructor
  · rintro ⟨h1, h2, h3⟩
    refine ⟨⟨h1, h2⟩, fun hr => ⟨(h3 hr).1, (h3 hr).2.1⟩, fun d hd hr => ?_⟩
    obtain ⟨hw, hs, hdec⟩ := h3 hr
    exact ⟨by simp [Htu.change, Htu.without, hw, hdec d hd], hs⟩
  · rintro ⟨⟨h1, h2⟩, h3, h4⟩
    refine ⟨h1, h2, fun hr => ⟨(h3 hr).1, (h3 hr).2, fun d hd => ?_⟩⟩
    have hw := (h4 d hd hr).1
    simp only [Htu.change, List.append_eq_nil_iff, Option.toList_eq_nil_iff] at hw
    exact hw.2

theorem offerLaw_step {s t : State} (hh : homeLaw s.hw) (hl : offerLaw s.hw) (ht : step s = .next t) :
    offerLaw t.hw := by
  obtain ⟨⟨hst, -⟩, -⟩ := (homeLaw_iff s.hw).mp hh
  rw [offerLaw_iff] at hl ⊢
  obtain ⟨hw, htab⟩ := hl
  obtain ⟨⟨-, htab'⟩, hw'⟩ := waiting_kept.step ⟨⟨hst, htab⟩, hw⟩ ht
  exact ⟨hw', htab'⟩

theorem clientLaw_step {s t : State} (hh : homeLaw s.hw) (ho : offerLaw s.hw) (hl : clientLaw s.hw)
    (ht : step s = .next t) : clientLaw t.hw := by
  obtain ⟨⟨hst, -⟩, -⟩ := (homeLaw_iff s.hw).mp hh
  obtain ⟨-, hn, hd⟩ := (offerLaw_iff s.hw).mp ho
  obtain ⟨h1, h2⟩ := hl
  have hp : Lawful (fun hs t => waitless hs t ∧ clientOnce t) s.hw :=
    ⟨hst, ⟨hn, h1⟩, fun d hx => ⟨hd d hx, h2 d hx⟩⟩
  obtain ⟨-, ⟨-, g1⟩, g2⟩ := client_table.kept.step hp ht
  exact ⟨g1, fun d hx => (g2 d hx).2⟩

/-- Settles O59: each law by the moves that it is kept by. -/
theorem countLawKept : Obligations.CountLawKept := by
  unfold Obligations.CountLawKept
  refine ⟨fun s t => countLaw_step, fun s t => queueLaw_step, fun s t => walker_kept.step, fun s t => capacityLaw_step,
    fun s t => offerLaw_step, fun s t => clientLaw_step, fun h hl i p n => ⟨fun e he f hf hek hfk => ?_,
      fun w hw v hv hwk hvk => ?_⟩, fun h hl hh hg i => ?_⟩
  · have hn := (List.nodup_append.mp ((clientOnce_iff _).mp hl.1).1).2.1
    refine List.inj_on_of_nodup_map hn he hf ?_
    simp only [Holder.key, hek.1, hek.2.1, hek.2.2, hfk.1, hfk.2.1, hfk.2.2]
  · have hn := (List.nodup_append.mp ((clientOnce_iff _).mp hl.1).2).1
    refine List.inj_on_of_nodup_map hn hw hv ?_
    simp only [Waiter.client, hwk.1, hwk.2, hvk.1, hvk.2]
  · obtain ⟨hw, -⟩ := (offerLaw_iff h).mp hl
    rw [noOfferDue_iff]
    intro hd
    rw [← holderFree_eq_false]
    by_contra hf
    obtain hm | ⟨g, hpg, -⟩ := hw.due hh i hd
    · rw [hw.emptied hh hg (Bool.not_eq_false _ ▸ hf)] at hm
      cases hm
    · rw [hg] at hpg
      cases hpg

end Sys2Proof.Machine
end

section
/-! O58, the part of the station itself: its state, its flags, its own record, and the pin (R112, R130, R173, R180). -/

namespace Sys2Proof.Machine

/-! ### Two kinds of station -/

/-- A station in OFFLINE: nothing frozen, the membership unit reset, no record, no flush. -/
structure Down (h : Hw) : Prop where
  offline : h.scu.station = .offline
  thawed : h.scu.frozen = false
  members : h.mbu = .reset
  unrecorded : h.lbc.record = none
  unflushed : h.scu.flushing = false

/-- A station out of OFFLINE: POR_N released, frozen, the own record SELF, a flush only in a present state. -/
structure Up (h : Hw) : Prop where
  out : h.scu.station ≠ .offline
  released : h.port.porAsserted = false
  frozen : h.scu.frozen = true
  self : h.mbu.member h.id = ⟨.self, none⟩
  present : h.scu.flushing = true → h.scu.station.present = true

/-- What the law of the station state says but for the home: the station is up, or, where it may be, down. -/
def SelfLaw (mayBeDown : Prop) (h : Hw) : Prop := mayBeDown ∧ Down h ∨ Up h

namespace Up

variable {h t : Hw}

theorem of_eq (hp : Up h) (hs : t.scu = h.scu) (hm : t.mbu.member h.id = h.mbu.member h.id)
    (hpo : t.port.porAsserted = h.port.porAsserted) : Up t where
  out := hs ▸ hp.out
  released := hpo.trans hp.released
  frozen := by rw [hs]; exact hp.frozen
  self := by rw [Hw.id, hs]; exact hm.trans hp.self
  present := by rw [hs]; exact hp.present

theorem of_mbu (hp : Up h) (hs : t.scu = h.scu) (hm : t.mbu = h.mbu) (hpo : t.port = h.port) : Up t :=
  hp.of_eq hs (by rw [hm]) (by rw [hpo])

/-- The station state alters out of OFFLINE, and the flag is set in a present state only. -/
theorem of_scu {c : Scu} (hp : Up h) (ho : c.station ≠ .offline) (hf : c.frozen = h.scu.frozen) (hi : c.id = h.scu.id)
    (hfl : c.flushing = true → c.station.present = true) : Up { h with scu := c } where
  out := ho
  released := hp.released
  frozen := hf.trans hp.frozen
  self := (congrArg h.mbu.member hi).trans hp.self
  present := hfl

/-- A record of another station alters. -/
theorem setMember {p : StationId} (hp : Up h) (hne : p ≠ h.id) (m : Member) : Up (h.setMember p m) :=
  hp.of_eq rfl (member_setMember_ne _ hne m) rfl

end Up

theorem SelfLaw.of_eq {d : Prop} {h t : Hw} (hp : SelfLaw d h) (hs : t.scu = h.scu) (hm : t.mbu = h.mbu) (hpo : t.port = h.port)
    (hr : h.lbc.record = none → t.lbc.record = none) : SelfLaw d t := by
  obtain ⟨hd, h1, h2, h3, h4, h5⟩ | hu := hp
  · exact .inl ⟨hd, by rw [hs]; exact h1, by rw [hs]; exact h2, hm.trans h3, hr h4, by rw [hs]; exact h5⟩
  · exact .inr (hu.of_mbu hs hm hpo)

/-- A station out of OFFLINE is up. -/
theorem SelfLaw.up {d : Prop} {h : Hw} (hp : SelfLaw d h) (ho : h.scu.station ≠ .offline) : Up h :=
  hp.resolve_left fun hd => ho hd.2.offline

/-- A station with an open record is up. -/
theorem SelfLaw.up_of_record {d : Prop} {h : Hw} {r : TxRecord} (hp : SelfLaw d h) (hr : h.lbc.record = some r) : Up h :=
  hp.resolve_left fun hd => by
    rw [hd.2.unrecorded] at hr
    cases hr

/-- The tracker and the home leave the station itself alone, but for the end of a rebuild. -/
theorem self_kept {d : Prop} : HomeKept (SelfLaw d) where
  holds _ hp := hp.of_eq rfl rfl rfl id
  slot _ _ hp := hp.of_eq rfl rfl rfl id
  ended _ _ _ _ hp := hp.of_eq (by simp) (by simp) (by simp) (by simp)
  placed _ hp := hp.of_eq rfl rfl rfl id
  returned _ hp := hp.of_eq rfl rfl rfl id
  removed _ hp := hp.of_eq rfl rfl rfl id
  claimed _ hp := hp.of_eq rfl rfl rfl id
  answer _ hp := hp.of_eq rfl rfl rfl id
  responses _ hp := hp.of_eq rfl rfl rfl id
  notice _ hp := hp.of_eq (by simp) (by simp) (by simp) (by simp)
  walk hp := hp.of_eq (by simp) (by simp) (by simp) (by simp)
  lowered hp := hp.of_eq (by simp) (by simp) (by simp) (by simp)
  finished _ hp := hp.of_eq (by simp [walkerFinish]) (by simp [walkerFinish]) (by simp [walkerFinish])
    (by simp [walkerFinish])
  dropped s hp := by
    unfold walkerDrop
    split
    · exact hp
    · split
      · exact hp.of_eq (by simp [walkerFinish, removePriority]) (by simp [walkerFinish, removePriority])
          (by simp [walkerFinish, removePriority]) (by simp [walkerFinish, removePriority])
      · exact hp.of_eq rfl rfl rfl id
  added s _ hp := by
    unfold walkerAdd
    split
    · exact hp.of_eq (by simp) (by simp) (by simp) (by simp)
    · dsimp only
      split
      · exact hp.of_eq (by simp [removePriority]) (by simp [removePriority]) (by simp [removePriority])
          (by simp [removePriority])
      · split
        · exact hp
        · exact hp.of_eq rfl rfl rfl id
  voided _ hp := by
    unfold reassertVoid
    split
    · dsimp only
      split <;> exact hp.of_eq rfl rfl rfl id
    · exact hp.of_eq rfl rfl rfl id
  home _ hp := hp.of_eq rfl rfl rfl id
  raised _ hp := hp.of_eq (by simp) (by simp) (by simp) (by simp)
  posted _ hp := hp.of_eq rfl rfl rfl id
  withdrawn _ hp := hp.of_eq rfl rfl rfl id
  lstall _ hr hp := .inr ((hp.up_of_record hr).of_mbu rfl rfl rfl)
  online hs hp := .inr ((hp.up (by simp [hs])).of_scu (by simp) rfl rfl fun _ => rfl)

/-! ### Membership and station control -/

variable {h : Hw}

/-- The timers of the beacon are none of the records. -/
theorem member_beacon (m : Mbu) (t : Option Nat) (w : Bool) (p : StationId) :
    ({ m with beaconTimer := t, wonMark := w } : Mbu).member p = m.member p := rfl

theorem down_reset (c : CommandStatus) (g : Hw) : Down (stationReset c g) := ⟨rfl, rfl, rfl, rfl, rfl⟩

theorem up_enterDuplicate (hn : h.scu.station = .listening ∨ h.scu.station = .joining) (hp : Up h) :
    Up (enterDuplicate h) := by
  have hf : h.scu.flushing = false := by
    by_contra hc
    have := hp.present (Bool.not_eq_false _ ▸ hc)
    rcases hn with hn | hn <;> rw [hn] at this <;> cases this
  refine ⟨by simp [enterDuplicate, removeNormal], by simpa [enterDuplicate, removeNormal] using hp.released,
    by simpa [enterDuplicate, removeNormal] using hp.frozen, ?_, by simp [enterDuplicate, removeNormal, hf]⟩
  have hself : h.mbu.member h.scu.id = ⟨.self, none⟩ := hp.self
  simp only [enterDuplicate, removeNormal, Hw.id, raiseEvent_scu, raiseEvent_mbu, member_beacon, member_mapMembers, hself]

theorem up_sighting (w : StationId) (i : Bool) (hp : Up h) : Up (sighting w i h) := by
  unfold sighting
  split
  · next hne => exact hp.setMember hne _
  · split
    · exact hp.of_eq rfl rfl rfl
    · split
      · next hs => exact up_enterDuplicate (.inl hs) hp
      · next hs => exact up_enterDuplicate (.inr hs) hp
      all_goals exact hp

theorem up_membershipCompleted (r : TxRecord) (o : BusOutcome) (hp : Up h) : Up (membershipCompleted r o h) := by
  unfold membershipCompleted
  split
  · split
    · next hc =>
      unfold peerAbsent
      split
      · exact hp
      · next hne => exact hp.setMember hne _
    · exact up_sighting _ _ hp
  · exact up_sighting _ _ hp

theorem up_joinMembership (p : BitVec 16) (hp : Up h) : Up (joinMembership p h) := by
  refine hp.of_eq rfl ?_ rfl
  unfold joinMembership
  dsimp only
  rw [member_beacon, member_mapMembers, if_pos rfl]

theorem up_ownJoin (p : BitVec 16) (hp : Up h) : Up (ownJoin p h) := by
  unfold ownJoin
  split
  · exact hp
  · next hj =>
    have raised : ∀ ev g, Up g → Up (raiseEvent ev g) := fun ev g hg => hg.of_mbu (by simp) (by simp) (by simp)
    split
    · exact up_enterDuplicate (.inr (not_not.mp hj)) hp
    · split
      · have hc : Up { h with scu := { h.scu with station := .online } } := hp.of_scu (by simp) rfl rfl fun _ => rfl
        exact raised _ _ (up_joinMembership p (hc.of_mbu rfl rfl rfl))
      · have hc : Up { h with scu := { h.scu with station := .rebuilding } } := hp.of_scu (by simp) rfl rfl fun _ => rfl
        exact raised _ _ (up_joinMembership p (hc.of_mbu rfl rfl rfl))

theorem down_ownLeave (g : Hw) : Down (ownLeave g) := by
  constructor <;> simp [ownLeave, Lbc.reset]

theorem up_startFlush (hs : h.scu.station.present = true) (hp : Up h) : Up (startFlush h) :=
  (hp.of_scu (c := { h.scu with flushing := true }) hp.out rfl rfl fun _ => hs).of_mbu rfl rfl rfl

theorem self_endFlush (hp : Up h) : Up (endFlush h) := by
  have hc : Up (flushCleared h) :=
    (hp.of_scu (c := { h.scu with flushing := false }) hp.out rfl rfl fun hc => by cases hc).of_mbu rfl rfl rfl
  have hw : Up (raiseEvent .flushDone (walkerAct (flushCleared h))) := hc.of_mbu (by simp) (by simp) (by simp)
  rw [endFlush_eq]
  split
  · exact hw.of_mbu rfl rfl rfl
  · exact hw

/-! ### The completion -/

theorem self_keepEntry {x : Transaction} (round : Round) (hp : SelfLaw True h) : SelfLaw True (keepEntry round x h) := by
  cases round <;> exact hp.of_eq rfl rfl rfl id

theorem self_grantCompleted {x : Transaction} (o : BusOutcome) (hp : SelfLaw True h) : SelfLaw True (grantCompleted x o h) := by
  unfold grantCompleted
  split
  · exact self_kept.endEngagement (fun _ => id) (hp.of_eq rfl rfl rfl id)
  · dsimp only
    split
    · exact self_kept.addClaim _ (self_kept.endEngagement (fun _ => id) (self_kept.departGrant hp))
    · exact self_kept.endEngagement (fun _ => id) (self_kept.home _ (self_kept.departGrant hp))

theorem self_initiatorCompleted (round : Round) (x : Transaction) (pr : BitVec 16) (o : BusOutcome) (hu : Up h) :
    SelfLaw True (initiatorCompleted round x pr o h) := by
  have hp : SelfLaw True h := .inr hu
  unfold initiatorCompleted
  split
  case h_1 hk => exact self_kept.slotOutcome (by rw [hk]; rfl) o hp
  case h_2 hk => exact self_kept.slotOutcome (by rw [hk]; rfl) o hp
  case h_3 hk => exact self_kept.slotOutcome (by rw [hk]; rfl) o hp
  case h_4 hk => exact self_kept.slotOutcome (by rw [hk]; rfl) o hp
  case h_5 => exact self_grantCompleted o hp
  case h_6 hk => exact self_kept.reassertOutcome hk o hp
  case h_7 => split <;> [exact self_keepEntry _ hp; exact hp]
  case h_8 => split <;> [exact self_keepEntry _ hp; exact hp]
  case h_9 => split <;> [exact self_keepEntry _ hp; exact .inr (up_ownJoin _ hu)]
  case h_10 => split <;> [exact self_keepEntry _ hp; exact .inl ⟨trivial, down_ownLeave h⟩]
  case h_11 =>
    split <;> [exact self_keepEntry _ hp; exact self_kept.deliverPurgeCause _ _ (.inr (self_endFlush hu))]

theorem self_completeTransaction (l : Lines) (ef : Bool) (hp : SelfLaw True h) : SelfLaw True (completeTransaction l ef h) := by
  unfold completeTransaction
  split
  · exact hp
  · next r hr =>
    split
    · dsimp only
      generalize settle (r.noteVoid r.error l.lvoid) = o
      have hu : Up (membershipCompleted (r.noteVoid r.error l.lvoid) o (closeRecord h)) :=
        up_membershipCompleted _ o ((hp.up_of_record hr).of_mbu rfl rfl rfl)
      unfold deliver
      dsimp only
      split
      · split
        · exact self_initiatorCompleted _ _ _ _ hu
        · exact .inr hu
      · split
        · exact self_kept.responderCompleted _ _ (.inr hu)
        · exact .inr hu
      · split
        · split
          · exact .inr hu
          · exact self_kept.observerCompleted _ _ _ _ (.inr hu)
        · exact .inr hu
    · exact hp

/-! ### The phases on the lockbus -/

theorem wonBy_outside (w : StationId) (round : Round) (c : Option Transaction) (g : Hw) :
    sameOutside g (wonBy w round c g) := by
  have hleave : sameOutside g (leaveList round g) := by cases round <;> exact ⟨rfl, rfl, rfl⟩
  unfold wonBy
  dsimp only
  split
  · unfold tellWin
    split
    · split <;> exact hleave
    · split <;> exact hleave
  · exact ⟨rfl, rfl, rfl⟩

theorem self_arbitrate (pl nl : BitVec 16) (hp : SelfLaw True h) : SelfLaw True (arbitrate pl nl h) := by
  unfold arbitrate
  split
  · next hc =>
    have ho : h.scu.station ≠ .offline := fun he => by
      rw [he] at hc
      exact absurd hc.1 (by simp [StationState.observes])
    have hs : SelfLaw False (settleArrivals h) := self_kept.settleArrivals (.inr (hp.up ho))
    have hu : Up (settleArrivals h) := hs.resolve_left fun hd => hd.1
    obtain he | ⟨w, round, c, he, -⟩ := holdRounds_cases pl nl (settleArrivals h) <;> rw [he]
    · exact .inr hu
    · obtain ⟨h1, h2, h3⟩ := wonBy_outside w round c (settleArrivals h)
      exact .inr (hu.of_mbu h1 h2 h3)
  · exact hp

/-- The open record goes on. -/
theorem self_setRecord {r r' : TxRecord} (hr : h.lbc.record = some r) (hp : SelfLaw True h) :
    SelfLaw True (setRecord r' h) := .inr ((hp.up_of_record hr).of_mbu rfl rfl rfl)

theorem self_startObservation (l : Lines) (hp : SelfLaw True h) : SelfLaw True (startObservation l h) := by
  unfold startObservation
  split
  · exact hp
  · next r hr =>
    split
    · dsimp only
      split
      · have hs : SelfLaw False (settleArrivals h) := self_kept.settleArrivals (.inr (hp.up_of_record hr))
        exact .inr ((hs.resolve_left fun hd => hd.1).of_mbu rfl rfl rfl)
      · exact self_setRecord hr hp
      · exact self_setRecord hr hp
    · exact hp

theorem self_closeObservation (l : Lines) (hp : SelfLaw True h) : SelfLaw True (closeObservation l h) := by
  unfold closeObservation
  split
  · exact hp
  · next r hr =>
    split
    · dsimp only
      split
      · exact self_setRecord hr hp
      · have hs : SelfLaw False (takeEngaged h) := self_kept.takeEngaged (.inr (hp.up_of_record hr))
        have hu : ∀ x, Up (setRecord x (takeEngaged h)) := fun x =>
          (hs.resolve_left fun hd => hd.1).of_mbu rfl rfl rfl
        unfold answerGrant
        split
        · split
          · exact self_kept.takeGrant _ _ (.inr (hu _))
          · exact .inr (hu _)
        · exact .inr (hu _)
    · exact hp

/-! ### Pins, commands and timers -/

theorem self_releasePor (i : StationId) (b : Fin 4) (hp : SelfLaw True h) : SelfLaw True (releasePor i b h) := by
  unfold releasePor
  split
  · next ha =>
    obtain ⟨-, h1, h2, h3, h4, h5⟩ | hu := hp
    · exact .inl ⟨trivial, h1, h2, h3, h4, h5⟩
    · rw [hu.released] at ha
      cases ha
  · exact hp

/-- A flush starts in a present state only. -/
theorem self_startFlush (hf : mayFlush h = true) (hp : SelfLaw True h) : SelfLaw True (startFlush h) := by
  have hs : h.scu.station = .rebuilding ∨ h.scu.station = .online := by
    simp only [mayFlush, Bool.and_eq_true, Bool.or_eq_true, decide_eq_true_eq] at hf
    exact hf.1
  have hpr : h.scu.station.present = true := by obtain hs | hs := hs <;> rw [hs] <;> rfl
  exact .inr (up_startFlush hpr (hp.up (by obtain hs | hs := hs <;> rw [hs] <;> simp)))

/-- The command statuses, the configuration and the listen timer are none of the station state. -/
theorem self_config {c : Scu} (hs : c.station = h.scu.station) (hf : c.frozen = h.scu.frozen) (hi : c.id = h.scu.id)
    (hfl : c.flushing = h.scu.flushing) (hp : SelfLaw True h) : SelfLaw True { h with scu := c } := by
  obtain ⟨-, h1, h2, h3, h4, h5⟩ | hu := hp
  · exact .inl ⟨trivial, hs.trans h1, hf.trans h2, h3, h4, hfl.trans h5⟩
  · exact .inr (hu.of_scu (by rw [hs]; exact hu.out) hf hi (by rw [hfl, hs]; exact hu.present))

theorem self_setStatus (c : CommandStatus) (hp : SelfLaw True h) : SelfLaw True (setStatus c h) :=
  self_config rfl rfl rfl rfl hp

theorem self_joinCommand (ha : h.port.porAsserted = false) (hp : SelfLaw True h) : SelfLaw True (joinCommand h) := by
  unfold joinCommand
  split
  · next hc =>
    obtain ⟨-, h1, h2, h3, h4, h5⟩ | hu := hp
    · exact .inr ⟨by simp [takeJoin], ha, rfl, member_setMember_same _ _ _, fun hf => by
        rw [show (takeJoin h).scu.flushing = h.scu.flushing from rfl, h5] at hf
        cases hf⟩
    · exact absurd hc.1 hu.out
  · exact self_setStatus _ hp

theorem self_leaveCommand (hp : SelfLaw True h) : SelfLaw True (leaveCommand h) := by
  unfold leaveCommand
  split
  · next hs =>
    have hu := hp.up (by obtain hs | hs := hs <;> rw [hs] <;> simp)
    have hg : Up (goneLeaving h) :=
      (hu.of_scu (c := { h.scu with station := .leaving, commandStatus := .taken }) (by simp) rfl rfl
        fun _ => rfl).of_mbu rfl rfl rfl
    obtain ⟨-, ht⟩ | ⟨-, ht⟩ := takeLeave_cases h <;> rw [ht]
    · exact .inr hg
    · exact .inr (up_startFlush rfl hg)
  · exact self_setStatus _ hp

theorem self_flushCommand (hp : SelfLaw True h) : SelfLaw True (flushCommand h) := by
  unfold flushCommand
  split
  · next hf => exact self_startFlush (h := setStatus .taken h) hf (self_setStatus _ hp)
  · exact self_setStatus _ hp

theorem self_queueRead (be : BitVec 4) (hp : SelfLaw True h) : SelfLaw True (queueRead be h) := by
  have data : ∀ w g, SelfLaw True g → SelfLaw True (setReadData w g) := fun w g hg => by
    obtain ⟨-, h1, h2, h3, h4, h5⟩ | hu := hg
    · exact .inl ⟨trivial, h1, h2, h3, h4, h5⟩
    · exact .inr (hu.of_eq rfl rfl rfl)
  unfold queueRead
  split
  · exact data _ _ hp
  · unfold readHead
    split
    · exact data _ _ hp
    · refine data _ _ ?_
      unfold afterRead
      split
      · unfold readDone
        split <;> exact hp.of_eq rfl rfl rfl id
      · exact hp.of_eq rfl rfl rfl id
      · exact hp.of_eq rfl rfl rfl id

theorem self_configWrite (q : ConfigRegister) (w : Word) (hp : SelfLaw True h) : SelfLaw True (configWrite q w h) := by
  have status : ∀ c g, SelfLaw True g → SelfLaw True (setConfigStatus c g) := fun c g hg =>
    self_config (h := g) rfl rfl rfl rfl hg
  unfold configWrite
  split
  · exact status _ _ hp
  · split
    · exact status _ _ hp
    · next g hg =>
      refine status _ _ ?_
      cases q with
      | routes j =>
        simp only [writeConfig, Option.map_eq_some_iff] at hg
        obtain ⟨rs, -, hg⟩ := hg
        rw [← hg]
        exact self_config (by simp [Scu.setRoutes]) (by simp [Scu.setRoutes]) (by simp [Scu.setRoutes])
          (by simp [Scu.setRoutes]) hp
      | station =>
        simp only [writeConfig, Option.map_eq_some_iff] at hg
        obtain ⟨f, -, hg⟩ := hg
        rw [← hg]
        have hc : SelfLaw True { h with scu := h.scu.setConfig f } :=
          self_config (by simp [Scu.setConfig]) (by simp [Scu.setConfig]) (by simp [Scu.setConfig])
            (by simp [Scu.setConfig]) hp
        exact hc.of_eq rfl rfl rfl id

theorem self_beaconExpiry (hp : SelfLaw True h) : SelfLaw True (beaconExpiry h) := by
  unfold beaconExpiry
  split
  · next ht =>
    have hu : Up h := hp.resolve_left fun hd => by
      rw [hd.2.members] at ht
      cases ht
    refine .inr ?_
    dsimp only
    split
    · exact hu.of_eq rfl rfl rfl
    · exact hu.of_eq rfl rfl rfl
  · exact hp

theorem self_silenceExpiry (p : StationId) (ef : Bool) (hp : SelfLaw True h) : SelfLaw True (silenceExpiry p ef h) := by
  unfold silenceExpiry
  split
  · next hc =>
    have hrun := hc.1
    have hu : Up h := hp.resolve_left fun hd => by
      rw [hd.2.members, show Mbu.reset.member p = ⟨.absent, none⟩ by simp [Mbu.reset, Mbu.member, get_eq_getElem]] at hrun
      cases hrun
    have hne : p ≠ h.id := fun he => by
      rw [he, hu.self] at hrun
      cases hrun
    have hm : SelfLaw True (h.setMember p { state := .lost, timer := none }) := .inr (hu.setMember hne _)
    exact StationKept.inOrder ef (fun _ => self_kept.raised _) (fun _ => self_kept.failWaits _)
      (self_kept.unawait _ (self_kept.deliverPurgeCause _ _ hm))
  · exact hp

theorem self_listenExpiry (hp : SelfLaw True h) : SelfLaw True (listenExpiry h) := by
  unfold listenExpiry
  split
  · next hc =>
    have hu : Up h := hp.up (by rw [hc.2]; simp)
    have hf : h.scu.flushing = false := by
      by_contra hn
      have := hu.present (Bool.not_eq_false _ ▸ hn)
      rw [hc.2] at this
      cases this
    have hj : Up { h with scu := { h.scu with station := .joining, listenTimer := none } } :=
      hu.of_scu (by simp) rfl rfl fun hc => by
        rw [show _ = false from hf] at hc
        cases hc
    exact .inr (hj.of_mbu rfl rfl rfl)
  · exact hp

theorem self_rebuildExpiry (hp : SelfLaw True h) : SelfLaw True (rebuildExpiry h) := by
  refine self_kept.takeArrived _ ?_
  split
  · exact self_kept.addClaim _ (self_kept.home _ hp)
  · exact hp

/-- The membership unit after a reset has no timer to advance. -/
theorem reset_tick (held : StationId → Bool) :
    { Mbu.reset.mapMembers (fun s m => m.tick (held s)) with beaconTimer := countDown Mbu.reset.beaconTimer } = Mbu.reset := by
  have hm : (Vector.ofFn fun s => (Mbu.reset.member s).tick (held s)) = Mbu.reset.members := by
    ext i hi
    · simp [Mbu.reset, Mbu.member, get_eq_getElem, Member.tick]
  simp only [Mbu.mapMembers, hm]
  rfl

theorem self_tickHw (hp : SelfLaw True h) : SelfLaw True (tickHw h) := by
  obtain ⟨-, h1, h2, h3, h4, h5⟩ | hu := hp
  · exact .inl ⟨trivial, h1, h2, by
      show ({ h.mbu.mapMembers (fun s m => m.tick (silenceHeld s h)) with
        beaconTimer := countDown h.mbu.beaconTimer } : Mbu) = .reset
      rw [h3]
      exact reset_tick _, h4, h5⟩
  · refine .inr ⟨hu.out, hu.released, hu.frozen, ?_, hu.present⟩
    have hself : h.mbu.member h.scu.id = ⟨.self, none⟩ := hu.self
    simp only [tickHw, Hw.id, member_beacon, member_mapMembers, hself, Member.tick]
    split <;> rfl

theorem self_atPort {f : Hw → Hw} (hf : h.port.porAsserted = false → SelfLaw True h → SelfLaw True (f h))
    (hp : SelfLaw True h) : SelfLaw True (atPort f h) := by
  unfold atPort
  split
  · exact hp
  · next hn => exact hf (Bool.eq_false_iff.mpr hn) hp

theorem self_fallCrst (hp : SelfLaw True h) : SelfLaw True (fallCrst h) := by
  unfold fallCrst
  split
  · next hf => exact self_startFlush hf hp
  · exact hp

theorem self_readRequestPhase (a b : Lines) (hp : SelfLaw True h) : SelfLaw True (readRequestPhase a b h) := by
  unfold readRequestPhase
  split
  · exact hp
  · next r hr => split <;> [exact self_setRecord hr hp; exact hp]

theorem self_readResponsePhase (l : Lines) (hp : SelfLaw True h) : SelfLaw True (readResponsePhase l h) := by
  unfold readResponsePhase
  split
  · next r x hr _ => split <;> [exact self_setRecord hr hp; exact hp]
  · exact hp

theorem self_pulseEnd (k : Fin 4) (hp : SelfLaw True h) : SelfLaw True (pulseEnd k h) := by
  unfold pulseEnd
  split
  · exact hp.of_eq rfl rfl rfl id
  · exact hp

theorem self_effect (c : Instr) (hp : SelfLaw True h) : SelfLaw True (effect c h) := by
  have k := self_kept (d := True)
  cases c
  case powerOnReset => exact .inl ⟨trivial, rfl, rfl, rfl, rfl, rfl⟩
  case porNRelease => exact self_releasePor _ _ hp
  case stationReset => exact .inl ⟨trivial, rfl, rfl, rfl, rfl, rfl⟩
  case srstNRelease =>
    obtain ⟨-, h1, h2, h3, h4, h5⟩ | hu := hp
    · exact .inl ⟨trivial, h1, h2, h3, h4, h5⟩
    · exact .inr (hu.of_eq rfl rfl rfl)
  case crstN => exact self_fallCrst hp
  case join => exact self_atPort self_joinCommand hp
  case leave => exact self_atPort (fun _ => self_leaveCommand) hp
  case flush => exact self_atPort (fun _ => self_flushCommand) hp
  case reset => exact self_atPort (fun _ _ => .inl ⟨trivial, down_reset _ h⟩) hp
  case stationCommandInvalid => exact self_atPort (fun _ => self_setStatus _) hp
  case acquire => exact self_atPort (fun _ => k.acquireCommand _ _ _) hp
  case release => exact self_atPort (fun _ => k.releaseCommand _) hp
  case downgrade => exact self_atPort (fun _ => k.downgradeCommand _) hp
  case cancel => exact self_atPort (fun _ => k.cancelCommand) hp
  case slotCommandInvalid => exact self_atPort (fun _ => k.refuse _) hp
  case slotParameterWrite => exact self_atPort (fun _ hp => hp.of_eq rfl rfl rfl id) hp
  case queueHeadRead => exact self_queueRead _ hp
  case configurationWrite => exact self_atPort (fun _ => self_configWrite _ _) hp
  case portWriteIgnored => exact hp
  case arbitration => exact self_arbitrate _ _ hp
  case requestPhase => exact self_readRequestPhase _ _ hp
  case observationPhase => exact self_startObservation _ hp
  case observationClose => exact self_closeObservation _ hp
  case responsePhase => exact self_readResponsePhase _ hp
  case completion => exact self_completeTransaction _ _ hp
  case lockTransactionClaim => exact k.takeEngaged hp
  case selfHomedRequest => exact k.takeArrived _ hp
  case selfHomedResponse => exact k.takeSlotResponse hp
  case grantOutcome => exact k.takeArrived _ hp
  case internalGrantOutcome => exact k.takeArrived _ hp
  case purgeCause => exact k.takeArrived _ hp
  case purgeEnd => exact k.finishPurge hp
  case waitTimerExpiry => exact k.waitExpiry hp
  case backoffTimerExpiry => exact k.backoffExpiry hp
  case beaconTimerExpiry => exact self_beaconExpiry hp
  case silenceTimerExpiry => exact self_silenceExpiry _ _ hp
  case listenWindowExpiry => exact self_listenExpiry hp
  case rebuildTimerExpiry => exact self_rebuildExpiry hp
  case notifyPulse => exact self_pulseEnd _ hp

/-- Every step keeps what the station is. -/
theorem selfLaw_step {s t : State} (hp : SelfLaw True s.hw) (ht : step s = .next t) : SelfLaw True t.hw :=
  step_keeps (self_tickHw hp) (fun c => self_effect c hp) ht

end Sys2Proof.Machine
end

section
/-! O58, the part of the home: the awaited set and the purges by the home state (R18, R137, R139), and the law. -/

namespace Sys2Proof.Machine

/-- What the law of the station state says of the home. -/
structure AwaitLaw (h : Hw) : Prop where
  awaiting : h.home ≠ .rebuilding → h.htu.awaited = 0
  own : h.htu.awaited.getLsbD h.id.val = false
  idle : h.home = .inactive → h.htu.purge = none
  swept : ∀ p, h.htu.purge = some p → p.rebuild = true → h.htu.awaited = 0

/-- A set of stations without an element is empty. -/
theorem subset_zero {a b : BitVec 16} (hs : ∀ i, a.getLsbD i = true → b.getLsbD i = true) (hb : b = 0) : a = 0 := by
  refine BitVec.eq_of_getLsbD_eq fun i _ => ?_
  by_contra hc
  have hi : a.getLsbD i = true := by simpa using hc
  rw [hb] at hs
  simpa using hs i hi

namespace AwaitLaw

variable {h t : Hw}

theorem of_eq (hp : AwaitLaw h) (hs : t.scu = h.scu) (ha : t.htu.awaited = h.htu.awaited)
    (hg : t.htu.purge = h.htu.purge) : AwaitLaw t := by
  obtain ⟨h1, h2, h3, h4⟩ := hp
  constructor
  · rwa [Hw.home, hs, ha]
  · rwa [Hw.id, hs, ha]
  · rwa [Hw.home, hs, hg]
  · rwa [hg, ha]

/-- An empty awaited set, at a home out of INACTIVE or without a purge, fulfils the law. -/
theorem of_empty (ha : h.htu.awaited = 0) (hg : h.home = .inactive → h.htu.purge = none) : AwaitLaw h :=
  ⟨fun _ => ha, by rw [ha]; simp, hg, fun _ _ _ => ha⟩

/-- The home state stays, and the ID while the station rebuilds. -/
theorem control {c : Scu} (hp : AwaitLaw h) (hc : c.station.home = h.scu.station.home)
    (hi : h.scu.station = .rebuilding → c.id = h.scu.id) : AwaitLaw { h with scu := c } := by
  have hho : ({ h with scu := c } : Hw).home = h.home := hc
  refine ⟨by rw [hho]; exact hp.awaiting, ?_, by rw [hho]; exact hp.idle, hp.swept⟩
  by_cases hr : h.home = .rebuilding
  · rw [show ({ h with scu := c } : Hw).id = h.id from hi (HomeKept.rebuilding_of_home hr)]
    exact hp.own
  · rw [show ({ h with scu := c } : Hw).htu.awaited = 0 from hp.awaiting hr]
    simp

/-- The home becomes serving, with nobody awaited. -/
theorem serves (hh : t.home = .serving) (ha : t.htu.awaited = 0) : AwaitLaw t :=
  .of_empty ha fun hi => by rw [hh] at hi; cases hi

/-- A purge starts. -/
theorem purging {g : Purge} (hp : AwaitLaw h) (hi : h.home ≠ .inactive) (hg : g.rebuild = true → h.htu.awaited = 0)
    (hs : t.scu = h.scu) (ha : t.htu.awaited = h.htu.awaited) (hpu : t.htu.purge = some g) : AwaitLaw t := by
  obtain ⟨h1, h2, -, -⟩ := hp
  constructor
  · rwa [Hw.home, hs, ha]
  · rwa [Hw.id, hs, ha]
  · exact fun hc => absurd (by rwa [Hw.home, hs] at hc) hi
  · intro p hpp hr
    obtain rfl := Option.some.inj (hpu.symm.trans hpp)
    exact ha.trans (hg hr)

/-- A purge ends. -/
theorem unpurged (hp : AwaitLaw h) (hs : t.scu = h.scu) (ha : t.htu.awaited = h.htu.awaited)
    (hg : t.htu.purge = none) : AwaitLaw t := by
  obtain ⟨h1, h2, -, -⟩ := hp
  constructor
  · rwa [Hw.home, hs, ha]
  · rwa [Hw.id, hs, ha]
  · exact fun _ => hg
  · intro p hpp
    rw [hg] at hpp
    cases hpp

end AwaitLaw

theorem takeEngaged_scu (h : Hw) : (takeEngaged h).scu = h.scu := by
  obtain he | ⟨r, -, -, -, -, -, he⟩ := takeEngaged_cases h <;> rw [he]
  rfl

theorem purgeFreed_scu (p : Purge) (h : Hw) : (PurgeKept.purgeFreed p h).scu = h.scu := by
  have hq : (queueEvict p h).scu = h.scu := by
    unfold queueEvict
    split <;> rfl
  simpa [PurgeKept.purgeFreed] using hq

theorem await_decided {h : Hw} (hp : AwaitLaw h) : AwaitLaw (takeEngaged h) := by
  obtain ⟨d, hd⟩ := takeEngaged_htu h
  exact hp.of_eq (takeEngaged_scu h) (by rw [hd]) (by rw [hd])

theorem await_table : TableKept AwaitLaw where
  quiet {h t} hq hp := by
    have hh := hq.2.1
    exact hp.of_eq hq.1 (by rw [hh]) (by rw [hh])
  claimed _ _ hp := hp.of_eq rfl (by simp) (by simp)
  moved _ _ _ _ _ hp := hp.of_eq rfl rfl rfl
  postedUp _ hp := hp.of_eq rfl rfl rfl
  postedDown hp := hp.of_eq rfl rfl rfl
  backlog _ hp := hp.of_eq rfl rfl rfl
  flagged _ _ hp := hp.of_eq rfl rfl rfl
  stalled _ _ _ hp := hp.of_eq rfl rfl rfl
  awaited {h} a hs hp := by
    have empty : h.htu.awaited = 0 → a = 0 := subset_zero hs
    refine ⟨fun hc => empty (hp.awaiting hc), ?_, hp.idle, fun p hg hr => empty (hp.swept p hg hr)⟩
    by_contra hc
    have hb := hs h.id.val (Bool.not_eq_false _ ▸ hc)
    rw [hp.own] at hb
    cases hb
  online _ _ := .serves rfl rfl
  changed _ _ hp := hp.of_eq rfl rfl rfl
  accepted _ _ _ _ hp := hp.of_eq rfl rfl rfl
  declined _ _ _ _ hp := hp.of_eq rfl rfl rfl
  purging _ _ _ hi ha hp := hp.purging hi ha rfl rfl rfl
  arrived _ _ _ hp := hp.of_eq rfl rfl rfl
  headed _ _ _ hp := hp.of_eq rfl rfl rfl
  metArrived _ _ hp := await_decided (hp.of_eq rfl rfl rfl)
  met _ _ hp := await_decided (hp.of_eq rfl rfl rfl)
  decided hp := await_decided hp

/-- The next purge of a rebuild expiry, and the end of the rebuild, at a home that awaits nobody any more. -/
theorem await_continueRebuild {p : Purge} {h : Hw} (hi : h.home ≠ .inactive)
    (ha : p.rebuild = true → h.htu.awaited = 0) (hf : h.htu.engaged = .free) (hp : AwaitLaw h) :
    AwaitLaw (continueRebuild p h) := by
  have hr : AwaitLaw (raiseEvent (.rebuildEvicted p.station) h) := await_table.raiseEvent _ hp
  unfold continueRebuild
  split
  · next hre =>
    dsimp only
    split
    · refine await_table.startPurge _ _ _ _ ?_ ?_ ?_ hr
      · simpa using hf
      · simpa [Hw.home] using hi
      · simpa using fun _ : True => ha hre
    · unfold endRebuild
      split
      · exact await_table.raiseEvent _ (.serves rfl (by simpa using ha hre))
      · exact hr
  · exact hp

theorem await_endPurge {p : Purge} {h : Hw} (hg : h.htu.purge = some p) (hp : AwaitLaw h) : AwaitLaw (endPurge p h) := by
  rw [PurgeKept.endPurge_eq]
  have hfree : AwaitLaw (PurgeKept.purgeFreed p h) :=
    hp.unpurged (purgeFreed_scu p h) (by simp [PurgeKept.purgeFreed, Hw.setHtu]) rfl
  obtain ⟨he, hef⟩ := await_table.evaluateTouched p.touched hfree rfl
  obtain ⟨hs, -, -, -, -, haw, -⟩ := ((eval_sameEngagement (PurgeKept.purgeFreed p h)).evaluateTouched p.touched
    (sameEngagement.refl _) rfl).1
  have hscu := purgeFreed_scu p h
  have hawait : (PurgeKept.purgeFreed p h).htu.awaited = h.htu.awaited := by simp [PurgeKept.purgeFreed, Hw.setHtu]
  refine await_continueRebuild (fun hi => ?_) (fun hr => ?_) hef he
  · rw [Hw.home, hs, hscu] at hi
    rw [hp.idle hi] at hg
    cases hg
  · exact haw.trans (hawait.trans (hp.swept p hg hr))

theorem await_rounds {h : Hw} (pl nl : BitVec 16) (hp : AwaitLaw h) : AwaitLaw (holdRounds pl nl h) := by
  obtain he | ⟨w, round, c, he, -⟩ := holdRounds_cases pl nl h <;> rw [he]
  · exact hp
  · obtain ⟨hh, -⟩ | ⟨_, -, -, hh⟩ := wonBy_htu w round c h <;>
      exact hp.of_eq (wonBy_scu w round c h) (by simp [hh]) (by simp [hh])

theorem await_observed {h : Hw} (l : Lines) (hp : AwaitLaw h) : AwaitLaw (startObservation l h) := by
  unfold startObservation
  split
  · exact hp
  · split
    · dsimp only
      split
      · refine (await_table.take.settleArrivals hp).of_eq rfl ?_ ?_ <;>
          (simp only [setRecord, Hw.setHtu, Htu.meetTransaction]; split <;> rfl)
      · exact hp.of_eq rfl rfl rfl
      · exact hp.of_eq rfl rfl rfl
    · exact hp

theorem await_observationClosed {h : Hw} (l : Lines) (hp : AwaitLaw h) : AwaitLaw (closeObservation l h) := by
  unfold closeObservation
  split
  · exact hp
  · split
    · dsimp only
      split
      · exact hp.of_eq rfl rfl rfl
      · have hd := await_decided hp
        unfold answerGrant
        split
        · split
          · exact await_table.tracker ((tracker_frame _).takeGrant _ _ (TrackerFrame.refl _)) (hd.of_eq rfl rfl rfl)
          · exact hd.of_eq rfl rfl rfl
        · exact hd.of_eq rfl rfl rfl
    · exact hp

theorem await_answered {h g : Hw} (o : BusOutcome) (hg : HomeFrame (closeRecord h) g) (hp : AwaitLaw h) :
    AwaitLaw (endEngagement (if o = .void then id else applyDecision g.htu.decision) g) := by
  obtain ⟨⟨hho, hi⟩, hh, -, -⟩ := hg
  have hgl : AwaitLaw g := by
    have hc : AwaitLaw { h with scu := g.scu } := hp.control hho fun _ => hi
    exact hc.of_eq rfl (by rw [hh]; rfl) (by rw [hh]; rfl)
  exact await_table.take.takeWaiting _
    (await_table.answeredWork o (hgl.of_eq rfl rfl rfl) fun _ _ => hgl.of_eq rfl rfl rfl)

/-- Every command but the release of the straps keeps what the home awaits. -/
theorem await_kept : HtuKept AwaitLaw where
  toTakeKept := await_table.take
  control hc hi hp := hp.control hc hi
  entered {h} st a t hj _ hst ha hp := by
    have hg : h.htu.purge = none := hp.idle (by rw [Hw.home, hj]; rfl)
    refine ⟨fun hc => ?_, ha, fun _ => hg, fun p hpp => ?_⟩
    · obtain ⟨rfl, ha⟩ | rfl := hst
      · exact ha
      · exact absurd rfl hc
    · rw [show ({ h with scu := { h.scu with station := st }, htu := h.htu.entered a t } : Hw).htu.purge = none from hg] at hpp
      cases hpp
  reset _ _ := .of_empty rfl fun _ => rfl
  left h := .of_empty (by simp [ownLeave, Htu.reset]) fun _ => by simp [ownLeave, Htu.reset]
  gone _ _ := .serves rfl rfl
  expired _ hp := hp.of_eq rfl (by simp) (by simp)
  ticked hp := hp.of_eq rfl rfl rfl
  rounds pl nl _ hp := await_rounds pl nl hp
  requested _ _ hp := by
    unfold readRequestPhase
    split
    · exact hp
    · split <;> [exact hp.of_eq rfl rfl rfl; exact hp]
  observed l hp := await_observed l hp
  observationClosed l hp := await_observationClosed l hp
  responded _ hp := by
    unfold readResponsePhase
    split
    · split <;> [exact hp.of_eq rfl rfl rfl; exact hp]
    · exact hp
  closed _ _ _ hp := hp.of_eq rfl rfl rfl
  answered o _ _ _ _ _ hg hp := await_answered o hg hp
  released _ _ _ _ _ _ _ _ hg := await_table.take.takeWaiting _ (hg.of_eq rfl rfl rfl)
  finished {h} hp := by
    unfold finishPurge
    split
    · exact hp
    · next hg => exact await_table.take.takeWaiting _ (await_endPurge hg hp)

/-- The straps are read while POR_N holds the station OFFLINE, where nobody is awaited. -/
theorem await_releasePor {h : Hw} (i : StationId) (b : Fin 4) (hs : SelfLaw True h) (hp : AwaitLaw h) :
    AwaitLaw (releasePor i b h) := by
  unfold releasePor
  split
  · next hpor =>
    have hd : Down h := (hs.resolve_right fun hu => by rw [hu.released] at hpor; cases hpor).2
    have hi : h.home = .inactive := by rw [Hw.home, hd.offline]; rfl
    exact .of_empty (hp.awaiting (by rw [hi]; simp)) fun _ => hp.idle hi
  · exact hp

/-! ### The law -/

theorem rebuilding_iff_home {h : Hw} : h.scu.station = .rebuilding ↔ h.home = .rebuilding :=
  ⟨fun hs => by rw [Hw.home, hs]; rfl, HomeKept.rebuilding_of_home⟩

theorem stationLaw_iff {h : Hw} : stationLaw h ↔ SelfLaw True h ∧ AwaitLaw h := by
  constructor
  · rintro ⟨h1, h2, h3, h4, h5, h6, h7, h8, h9⟩
    refine ⟨?_, fun hc => h6 (mt rebuilding_iff_home.mp hc), h7, h8, h9⟩
    by_cases ho : h.scu.station = .offline
    · refine .inl ⟨trivial, ho, ?_, (h3 ho).1, (h3 ho).2, ?_⟩
      · by_contra hc
        exact h2.mp (by simpa using hc) ho
      · by_contra hc
        have hpr := h5 (by simpa using hc)
        rw [ho] at hpr
        cases hpr
    · exact .inr ⟨ho, by by_contra hc; exact ho (h1 (by simpa using hc)), h2.mpr ho, h4 ho, h5⟩
  · rintro ⟨hs, ha⟩
    refine ⟨?_, ?_, ?_, ?_, ?_, fun hc => ha.awaiting (mt rebuilding_iff_home.mpr hc), ha.own, ha.idle, ha.swept⟩
    · intro hpor
      obtain ⟨-, hd⟩ | hu := hs
      · exact hd.offline
      · rw [hu.released] at hpor
        cases hpor
    · obtain ⟨-, hd⟩ | hu := hs
      · simp [hd.thawed, hd.offline]
      · simp [hu.frozen, hu.out]
    · intro ho
      obtain ⟨-, hd⟩ | hu := hs
      · exact ⟨hd.members, hd.unrecorded⟩
      · exact absurd ho hu.out
    · exact fun ho => (hs.up ho).self
    · intro hf
      obtain ⟨-, hd⟩ | hu := hs
      · rw [hd.unflushed] at hf
        cases hf
      · exact hu.present hf

theorem stationLaw_step {s t : State} (hp : stationLaw s.hw) (ht : step s = .next t) : stationLaw t.hw := by
  rw [stationLaw_iff] at hp ⊢
  obtain ⟨hs, ha⟩ := hp
  exact ⟨selfLaw_step hs ht, await_kept.step (fun i b => await_releasePor i b hs ha) ha ht⟩

/-- Settles O58: a station is down, or up with POR_N released, frozen, SELF and flushing in a present state only; and only
a rebuilding home awaits anybody. -/
theorem stationLawKept : Obligations.StationLawKept := fun _ _ => stationLaw_step

end Sys2Proof.Machine
end

section
/-! O5 and O20: the straps are sampled by the power-on reset alone (R152, R179), and the winner of a round comes first
after the pointer (R29). -/

namespace Sys2Proof.Machine

/-! ### The straps -/

/-- The tracker and the home leave a property of the SCU that the end of a rebuild keeps. -/
theorem HomeKept.of_scu {Q : Scu → Prop} (ho : ∀ c : Scu, Q c → Q { c with station := .online }) :
    HomeKept fun h => Q h.scu where
  holds _ hp := hp
  slot _ _ hp := hp
  ended _ _ _ _ hp := by rwa [endOperation_scu]
  placed _ hp := hp
  returned _ hp := hp
  removed _ hp := hp
  claimed _ hp := hp
  answer _ hp := hp
  responses _ hp := hp
  notice _ hp := by rwa [requestNotice_scu]
  walk hp := by rwa [walkerAct_scu]
  lowered hp := by rwa [walkerAct_scu]
  finished _ hp := by rwa [walkerFinish, walkerAct_scu]
  dropped s {h} hp := by
    unfold walkerDrop
    split
    · exact hp
    · split
      · rwa [walkerFinish, walkerAct_scu]
      · exact hp
  added s _ hp := by
    unfold walkerAdd
    split
    · rwa [walkerAct_scu]
    · dsimp only
      split
      · rwa [walkerAct_scu]
      · split <;> exact hp
  voided _ hp := by
    unfold reassertVoid
    split
    · dsimp only
      split <;> exact hp
    · exact hp
  home _ hp := hp
  raised _ hp := by rwa [raiseEvent_scu]
  posted _ hp := hp
  withdrawn _ hp := hp
  lstall _ _ hp := hp
  online _ hp := ho _ hp

/-- The station ID and the beacon period are as the straps gave them. -/
def strapsAre (i : StationId) (b : Fin 4) (h : Hw) : Prop := h.scu.id = i ∧ h.scu.bpsel = b

/-- No move of the station samples the straps. -/
theorem straps_kept (i : StationId) (b : Fin 4) : StationKept (strapsAre i b) where
  toHomeKept := HomeKept.of_scu (Q := fun c => c.id = i ∧ c.bpsel = b) fun _ hc => hc
  control hi _ _ _ hp := ⟨hi.1.trans hp.1, hi.2.trans hp.2⟩
  members _ hp := hp
  pins _ hp := hp
  limits _ hp := hp
  listed _ hp := hp
  record _ _ hp := hp
  closed hp := hp
  lines _ hp := hp
  ticked hp := hp
  reset _ hp := hp
  flushed _ hp := hp
  unflushed {h} hp := by
    rw [endFlush_eq]
    split <;> simpa [strapsAre, flushCleared] using hp
  leaving {h} _ hp := by obtain ⟨-, ht⟩ | ⟨-, ht⟩ := takeLeave_cases h <;> rw [ht] <;> exact hp
  headRead hp := by rwa [strapsAre, readHead_scu]
  won _ hp := by rwa [strapsAre, wonBy_scu]
  keptBack round _ _ hp := by cases round <;> exact hp
  left _ _ _ hp := by simpa [strapsAre, ownLeave] using hp

/-- Settles O5: a power-on reset resets every block and samples the straps, and no other command does. -/
theorem powerOnResetSamplesStraps : Obligations.PowerOnResetSamplesStraps := by
  unfold Obligations.PowerOnResetSamplesStraps
  refine ⟨fun id bp s => ⟨_, exec_eq _ s, powerOnReset_values s.hw id bp, scuReset_defaults id bp, rfl, rfl, rfl, rfl⟩,
    fun c s t ht hc => ?_⟩
  rw [exec_eq] at ht
  obtain rfl := Host.Outcome.next.inj ht
  exact (straps_kept _ _).effect c (fun i b he => absurd he (hc i b).1) (fun i b he => absurd he (hc i b).2) ⟨rfl, rfl⟩

/-! ### The winner of a round -/

/-- The station at place `k` after the pointer stands there. -/
theorem place_after (p v : StationId) : p + 1 + (v - (p + 1)) = v := by grind

theorem after_place (p k : StationId) : p + 1 + k - (p + 1) = k := by grind

/-- Settles O20: the search runs over the places after the pointer in ascending order. -/
theorem winnerIsFirstAfterPointer : Obligations.WinnerIsFirstAfterPointer := by
  unfold Obligations.WinnerIsFirstAfterPointer
  intro p lines
  refine ⟨?_, fun w => ?_⟩
  · simp only [winnerAfter, List.find?_eq_none, List.mem_map, List.mem_finRange, true_and, forall_exists_index,
      forall_apply_eq_imp_iff, Bool.not_eq_true]
    refine ⟨fun hn => BitVec.eq_of_getLsbD_eq fun i hi => ?_, fun h0 k => by simp [h0]⟩
    have hv := hn ((⟨i, hi⟩ : StationId) - (p + 1))
    rw [place_after] at hv
    simpa using hv
  · simp only [winnerAfter, List.find?_map, ← Fin.find?_eq_find?_finRange, Option.map_eq_some_iff,
      Fin.find?_eq_some_iff, Function.comp_apply]
    constructor
    · rintro ⟨k, ⟨hk, hbefore⟩, rfl⟩
      refine ⟨hk, fun v hv => ?_⟩
      by_contra hlt
      rw [after_place] at hlt
      have hnot := hbefore (v - (p + 1)) (Fin.lt_def.mpr (Nat.lt_of_not_le hlt))
      rw [place_after, hv] at hnot
      cases hnot
    · rintro ⟨hw, hfirst⟩
      refine ⟨w - (p + 1), ⟨by rwa [place_after], fun j hj => ?_⟩, place_after p w⟩
      by_contra hc
      have hle := hfirst (p + 1 + j) (Bool.not_eq_false _ ▸ hc)
      rw [after_place] at hle
      exact absurd (Fin.lt_def.mp hj) (Nat.not_lt.mpr hle)

end Sys2Proof.Machine
end

section
/-! O22 and O23: the request and response words by their fields, and the parity driven with a word (R35, R44, R165,
R166). -/

namespace Sys2Proof.Machine

/-! ### Fields of words -/

/-- The field of a word put together from two, in the upper one. -/
theorem bits_append_above {v w lo n : Nat} (a : BitVec v) (b : BitVec w) (hle : w ≤ lo) :
    (a ++ b).extractLsb' lo n = a.extractLsb' (lo - w) n := BitVec.extractLsb'_append_eq_of_le hle

/-- The field of a word put together from two, in the lower one. -/
theorem bits_append_below {v w lo n : Nat} (a : BitVec v) (b : BitVec w) (hle : lo + n ≤ w) :
    (a ++ b).extractLsb' lo n = b.extractLsb' lo n := BitVec.extractLsb'_append_eq_of_add_le hle

@[simp] theorem kindOfCode_kindCode (k : Kind) : kindOfCode (kindCode k) = some k := by cases k <;> rfl

@[simp] theorem modeOfBit_modeBit (m : Mode) : modeOfBit (modeBit m) = m := by cases m <;> rfl

/-- A one-bit field is its flag. -/
theorem getLsbD_of_bits {w : Word} {i : Nat} {b : Bool} (hw : bits w i 1 = bit b) : w.getLsbD i = b := by
  have h0 := congrArg (fun x : BitVec 1 => x.getLsbD 0) hw
  simpa using h0

/-- The lowest field of a word put together from two. -/
theorem bits_append_lowest {v w : Nat} (a : BitVec v) (b : BitVec w) : (a ++ b).extractLsb' 0 w = b :=
  (bits_append_below a b (by omega)).trans BitVec.extractLsb'_eq_self

/-- The fields of request word 0, from the lowest on (R165): each stands above those written behind it. -/
theorem requestWord0_fields (own : StationId) (t : Transaction) :
    bits (requestWord0 own t) 0 12 = BitVec.ofNat 12 t.lock.val
      ∧ bits (requestWord0 own t) 12 5 = BitVec.ofNat 5 t.slot.val
      ∧ bits (requestWord0 own t) 17 4 = BitVec.ofNat 4 own.val ∧ bits (requestWord0 own t) 21 1 = modeBit t.mode
      ∧ bits (requestWord0 own t) 22 1 = bit t.tryFlag ∧ bits (requestWord0 own t) 23 1 = bit t.endFlag
      ∧ bits (requestWord0 own t) 24 4 = kindCode t.kind := by
  refine ⟨bits_append_lowest _ _, ?slot, ?source, ?mode, ?tryFlag, ?endFlag, ?kind⟩
  case slot => exact (bits_append_above _ _ (by decide)).trans (bits_append_lowest _ _)
  case source =>
    iterate 2 refine (bits_append_above _ _ (by decide)).trans ?_
    exact bits_append_lowest _ _
  case mode =>
    iterate 3 refine (bits_append_above _ _ (by decide)).trans ?_
    exact bits_append_lowest _ _
  case tryFlag =>
    iterate 4 refine (bits_append_above _ _ (by decide)).trans ?_
    exact bits_append_lowest _ _
  case endFlag =>
    iterate 5 refine (bits_append_above _ _ (by decide)).trans ?_
    exact bits_append_lowest _ _
  case kind =>
    iterate 6 refine (bits_append_above _ _ (by decide)).trans ?_
    exact bits_append_lowest _ _

theorem requestWord1_fields (t : Transaction) : bits (requestWord1 t) 0 4 = BitVec.ofNat 4 t.target.val
    ∧ bits (requestWord1 t) 4 5 = BitVec.ofNat 5 t.targetSlot.val :=
  ⟨bits_append_lowest _ _, (bits_append_above _ _ (by decide)).trans (bits_append_lowest _ _)⟩

/-- Settles O22: each field is read where it was written. -/
theorem requestWordsRoundTrip : Obligations.RequestWordsRoundTrip := by
  unfold Obligations.RequestWordsRoundTrip
  intro own t
  obtain ⟨hlock, hslot, hsource, hmode, htry, hend, hkind⟩ := requestWord0_fields own t
  obtain ⟨htarget, htargetSlot⟩ := requestWord1_fields t
  refine ⟨?_, ?_⟩
  · simp only [readRequest, hlock, hslot, hmode, getLsbD_of_bits htry, getLsbD_of_bits hend, hkind, htarget, htargetSlot,
      kindOfCode_kindCode, modeOfBit_modeBit, Option.map_some]
    simp
  · rw [sourceField, hsource]
    simp

/-! ### Responses (R44, R166) -/

theorem responseWord_fields (x : Response) :
    bits (responseWord x) 0 4 = responseCode x ∧ bits (responseWord x) 4 4 = responseDetail x :=
  ⟨bits_append_lowest _ _, (bits_append_above _ _ (by decide)).trans (bits_append_lowest _ _)⟩

/-- Code and detail tell the responses apart. -/
theorem response_of_fields {x y : Response} (hc : responseCode x = responseCode y)
    (hd : responseDetail x = responseDetail y) : x = y := by
  cases x with
  | refused c =>
    cases y with
    | refused d => cases c <;> cases d <;> simp_all [responseDetail]
    | _ => simp [responseCode] at hc
  | _ => cases y <;> simp_all [responseCode]

theorem readResponse_eq_some {k : Kind} {w : Word} {x : Response} : readResponse k w = some x ↔
    x ∈ responsesOf k ∧ responseCode x = bits w 0 4 ∧ responseDetail x = bits w 4 4 := by
  constructor
  · intro hx
    have hf := List.find?_some hx
    simp only [Bool.and_eq_true, beq_iff_eq] at hf
    exact ⟨List.mem_of_find?_eq_some hx, hf⟩
  · rintro ⟨hm, hc, hd⟩
    cases hf : readResponse k w with
    | none =>
      have := List.find?_eq_none.mp hf x hm
      simp [hc, hd] at this
    | some y =>
      have hy := List.find?_some hf
      simp only [Bool.and_eq_true, beq_iff_eq] at hy
      exact congrArg some (response_of_fields (hy.1.trans hc.symm) (hy.2.trans hd.symm))

/-! ### Parity (R35) -/

theorem getLsbD_two_bits (a b : Bool) : (bit a ++ bit b).getLsbD 0 = b ∧ (bit a ++ bit b).getLsbD 1 = a := by
  cases a <;> cases b <;> decide

theorem parityOf_lines (w : Word) : (parityOf w).getLsbD 0 = decide (onesOf (bits w 0 16) % 2 = 1)
    ∧ (parityOf w).getLsbD 1 = decide (onesOf (bits w 16 16) % 2 = 1) := getLsbD_two_bits _ _

/-- A half-word passes with a parity line exactly where the line tells its count. -/
theorem halfEven_iff (x : BitVec 16) (p : Bool) : halfEven x p = decide (p = decide (onesOf x % 2 = 1)) := by
  have hm : onesOf x % 2 = 0 ∨ onesOf x % 2 = 1 := by omega
  cases p <;> obtain hm | hm := hm <;> simp [halfEven, hm, Nat.add_mod]

theorem parityEven_iff (w : Word) (p : BitVec 2) : parityEven w p = true ↔
    p.getLsbD 0 = decide (onesOf (bits w 0 16) % 2 = 1) ∧ p.getLsbD 1 = decide (onesOf (bits w 16 16) % 2 = 1) := by
  simp [parityEven, halfEven_iff]

/-- Of the places of a list that count, exactly one turned over makes the count odd or even. -/
theorem countP_flip {l : List Nat} {p q : Nat → Bool} {i : Nat} (hl : l.Nodup) (hi : i ∈ l) (hq : q i = !p i)
    (ho : ∀ j, j ≠ i → q j = p j) : l.countP q % 2 ≠ l.countP p % 2 := by
  have hrest : (l.erase i).countP q = (l.erase i).countP p :=
    List.countP_congr fun j hj => by rw [ho j (hl.mem_erase_iff.mp hj).1]
  rw [(List.perm_cons_erase hi).countP_eq, (List.perm_cons_erase hi).countP_eq, List.countP_cons, List.countP_cons,
    hrest, hq]
  cases p i <;> simp <;> omega

/-- One line of a half-word read wrong turns its count over. -/
theorem onesOf_flip (x : BitVec 16) {i : Nat} (hi : i < 16) : onesOf (x ^^^ BitVec.twoPow 16 i) % 2 ≠ onesOf x % 2 := by
  refine countP_flip List.nodup_range (List.mem_range.mpr hi) ?_ fun j hj => ?_
  · simp [hi]
  · simp [BitVec.getLsbD_twoPow, hj.symm]

/-- One line of a word read wrong is one of a half, and the other half reads right. -/
theorem bits_flip (w : Word) {i lo : Nat} (hlo : lo + 16 ≤ 32) : bits (w ^^^ BitVec.twoPow 32 i) lo 16 =
    if lo ≤ i ∧ i < lo + 16 then bits w lo 16 ^^^ BitVec.twoPow 16 (i - lo) else bits w lo 16 := by
  refine BitVec.eq_of_getLsbD_eq fun j hj => ?_
  have hin : lo + j < 32 := by omega
  split
  · next hc =>
    have hplace : lo + j = i ↔ j = i - lo := by omega
    simp [hj, hin, hplace]
  · next hc =>
    have hplace : lo + j ≠ i := by omega
    simp [hj, hin, hplace]

theorem parityEven_flip_word (w : Word) (i : Fin 32) : parityEven (w ^^^ BitVec.twoPow 32 i.val) (parityOf w) = false := by
  obtain ⟨hlow, hhigh⟩ := parityOf_lines w
  by_contra hc
  obtain ⟨h0, h1⟩ := (parityEven_iff _ _).mp (Bool.not_eq_false _ ▸ hc)
  rw [hlow, bits_flip w (by decide)] at h0
  rw [hhigh, bits_flip w (by decide)] at h1
  by_cases hi : i.val < 16
  · rw [if_pos (by omega), decide_eq_decide] at h0
    have := onesOf_flip (bits w 0 16) (i := i.val - 0) (by omega)
    omega
  · rw [if_pos (by omega), decide_eq_decide] at h1
    have := onesOf_flip (bits w 16 16) (i := i.val - 16) (by omega)
    omega

theorem parityEven_flip_line (w : Word) (j : Fin 2) : parityEven w (parityOf w ^^^ BitVec.twoPow 2 j.val) = false := by
  obtain ⟨hlow, hhigh⟩ := parityOf_lines w
  by_contra hc
  obtain ⟨h0, h1⟩ := (parityEven_iff _ _).mp (Bool.not_eq_false _ ▸ hc)
  rw [BitVec.getLsbD_xor, hlow, BitVec.getLsbD_twoPow] at h0
  rw [BitVec.getLsbD_xor, hhigh, BitVec.getLsbD_twoPow] at h1
  match j with
  | 0 => simp at h0
  | 1 => simp at h1

/-- Settles O23: code and detail tell the responses apart, and one line read wrong turns the count of its half over. -/
theorem responseWordsAndParity : Obligations.ResponseWordsAndParity := by
  unfold Obligations.ResponseWordsAndParity
  refine ⟨fun k x => ⟨fun hm => ?_, fun w hw => readResponse_eq_some.mp hw⟩, fun w => ⟨?_, parityEven_flip_word w,
    parityEven_flip_line w⟩⟩
  · obtain ⟨hc, hd⟩ := responseWord_fields x
    exact readResponse_eq_some.mpr ⟨hm, hc.symm, hd.symm⟩
  · exact (parityEven_iff w _).mpr (parityOf_lines w)

end Sys2Proof.Machine
end

section
/-! O24 and O28: the lines this station drives in each phase, and what it reads in the request and the response phase
(R26, R27, R31 to R37, R41). -/

namespace Sys2Proof.Machine

variable {h : Hw} {r : TxRecord}

/-! ### Wired-OR lines -/

@[simp] theorem wired_idleLines (l : Lines) : wired idleLines l = l := by
  simp [wired, idleLines]

@[simp] theorem wired_larb (a b : Lines) : (wired a b).larb = a.larb ||| b.larb := rfl
@[simp] theorem wired_ldat (a b : Lines) : (wired a b).ldat = a.ldat ||| b.ldat := rfl
@[simp] theorem wired_lpar (a b : Lines) : (wired a b).lpar = a.lpar ||| b.lpar := rfl
@[simp] theorem wired_lrsp (a b : Lines) : (wired a b).lrsp = (a.lrsp || b.lrsp) := rfl
@[simp] theorem wired_lvoid (a b : Lines) : (wired a b).lvoid = (a.lvoid || b.lvoid) := rfl
@[simp] theorem wired_lstall (a b : Lines) : (wired a b).lstall = (a.lstall || b.lstall) := rfl

/-! ### The lines driven in each phase -/

theorem drivesVoid_iff (s : StationState) (r : TxRecord) :
    drivesVoid s r = true ↔ r.error = true ∧ (s.present = true ∨ (s = .joining ∧ r.role = .initiator)) := by
  simp [drivesVoid, mayVoid]

/-- A station in LISTENING or JOINING asserts no void on a transaction it only observes (R27). -/
theorem drivesVoid_observer {s : StationState} (hs : s = .listening ∨ s = .joining) (hr : r.role = .observer) :
    drivesVoid s r = false := by
  rcases hs with rfl | rfl <;> simp [drivesVoid, mayVoid, hr, StationState.present]

theorem drivenLines_request (hr : h.lbc.record = some r) (hp : r.phase = .request) :
    drivenLines h = requestLines h r false := by simp [drivenLines, hr, hp]

theorem drivenLines_observation (hr : h.lbc.record = some r) (hp : r.phase = .observation ∨ r.phase = .observing) :
    drivenLines h = observationLines h r := by
  obtain hp | hp := hp <;> simp [drivenLines, hr, hp]

theorem drivenLines_response (hr : h.lbc.record = some r) (hp : r.phase = .response) :
    drivenLines h = responseLines h r := by simp [drivenLines, hr, hp]

theorem drivenLines_completion (hr : h.lbc.record = some r) (hp : r.phase = .completion) :
    drivenLines h = completionLines h r := by simp [drivenLines, hr, hp]

/-- In the response phase only a responder with a response drives a word (R37). -/
theorem responseLines_word {y : Response} (hr : r.role = .responder) (hy : ownResponse h = some y) :
    responseLines h r = { idleLines with
      larb := drivesLarb h.id r, lrsp := r.lrsp, lvoid := drivesVoid h.scu.station r
      ldat := responseWord y, lpar := parityOf (responseWord y) } := by
  simp [responseLines, hr, hy]

theorem responseLines_silent (hr : r.role ≠ .responder ∨ ownResponse h = none) :
    responseLines h r = { idleLines with
      larb := drivesLarb h.id r, lrsp := r.lrsp, lvoid := drivesVoid h.scu.station r } := by
  unfold responseLines
  split
  · next hy hrole => simp_all
  · rfl

/-- The lines of the response phase but for the word. -/
theorem responseLines_frame (h : Hw) (r : TxRecord) : (responseLines h r).larb = drivesLarb h.id r
    ∧ (responseLines h r).lrsp = r.lrsp ∧ (responseLines h r).lvoid = drivesVoid h.scu.station r
    ∧ (responseLines h r).lstall = false := by
  unfold responseLines
  split <;> exact ⟨rfl, rfl, rfl, rfl⟩

@[simp] theorem parityOf_zero : parityOf 0#32 = 0#2 := by decide

/-- An observer in LISTENING or JOINING drives nothing (R27). -/
theorem drivenLines_observer (hr : h.lbc.record = some r) (hrole : r.role = .observer) (he : r.entry = none)
    (hl : r.lrsp = false) (hst : r.lstall = false) (hs : h.scu.station = .listening ∨ h.scu.station = .joining) :
    drivenLines h = idleLines := by
  have hv := drivesVoid_observer (r := r) hs hrole
  have hp : h.scu.station.present = false := by obtain hs | hs := hs <;> rw [hs] <;> rfl
  have hb : presenceBit h = 0 := by simp [presenceBit, hp]
  cases hph : r.phase
  case request => simp [drivenLines_request hr hph, requestLines, drivesLarb, hrole, he, hv, idleLines]
  case observation | observing =>
    simp [drivenLines_observation hr (by simp [hph]), observationLines, drivesLarb, hrole, hl, hst, hv, hb, idleLines]
  case response =>
    simp [drivenLines_response hr hph, responseLines_silent (r := r) (h := h) (by simp [hrole]), drivesLarb, hrole, hl, hv,
      idleLines]
  case completion => simp [drivenLines_completion hr hph, completionLines, hv, idleLines]

/-- The lines of every phase are those `linesDriven` lists. -/
theorem linesDriven_all (h : Hw) : linesDriven h := by
  refine ⟨fun hn => by rw [drivenLines, hn], fun r hr => ⟨drivenLines_observer hr, ?_⟩⟩
  cases hp : r.phase
  case request =>
    rw [drivenLines_request hr hp]
    refine ⟨by simp [requestLines, drivesLarb, stationBit], drivesVoid_iff _ _, by simp [requestLines, idleLines], by simp [requestLines, idleLines],
      fun _ => ⟨fun x hx => by simp [requestLines, hx], fun hx => by simp [requestLines, hx]⟩, by simp, by simp, by simp⟩
  case observation | observing =>
    rw [drivenLines_observation hr (by simp [hp])]
    refine ⟨by simp [observationLines, drivesLarb, stationBit], drivesVoid_iff _ _, by simp [observationLines],
      by simp [observationLines], by simp, fun _ => ⟨rfl, ?_⟩, by simp, by simp⟩
    simp only [observationLines, presenceBit, stationBit]
    split <;> rfl
  case response =>
    rw [drivenLines_response hr hp]
    obtain ⟨hlarb, hlrsp, hlvoid, hlstall⟩ := responseLines_frame h r
    refine ⟨by simp [hlarb, drivesLarb, stationBit], hlvoid ▸ drivesVoid_iff _ _, by simp [hlrsp], by simp [hlstall],
      by simp, by simp, fun _ => ⟨fun hrole y hy => ?_, fun hn => ?_⟩, by simp⟩
    · rw [responseLines_word hrole hy]
      exact ⟨rfl, rfl⟩
    · rw [responseLines_silent hn]
      exact ⟨rfl, rfl⟩
  case completion =>
    rw [drivenLines_completion hr hp]
    refine ⟨by simp [completionLines, idleLines], drivesVoid_iff _ _, by simp [completionLines, idleLines],
      by simp [completionLines, idleLines], by simp, by simp, by simp, fun _ => ⟨rfl, rfl⟩⟩

/-! ### The request phase (R32, R35) -/

theorem readRequestPhase_eq (hr : h.lbc.record = some r) (hp : r.phase = .request) (a b : Lines) :
    readRequestPhase a b h = setRecord
      ({ r with
        words := some ((wired a (requestLines h r false)).ldat, (wired b (requestLines h r true)).ldat)
        phase := .observation }.noteVoid
        (requestError r (wired a (requestLines h r false)) (wired b (requestLines h r true)))
        ((wired a (requestLines h r false)).lvoid || (wired b (requestLines h r true)).lvoid)) h := by
  simp [readRequestPhase, hr, hp]

/-- The words this station drives alone in its own request phase are free of errors (R35). -/
theorem requestError_own {e : Transaction} (hrole : r.role = .initiator) (hw : r.winner = h.id) (he : r.entry = some e) :
    requestError r (requestLines h r false) (requestLines h r true) = false := by
  obtain ⟨hround, hsource⟩ := requestWordsRoundTrip h.id e
  have hp : ∀ w, parityEven w (parityOf w) = true := fun w => (responseWordsAndParity.2 w).1
  have hl : (drivesLarb h.id r).getLsbD h.id.val = true := by simp [drivesLarb, hrole, stationBit]
  simp [requestError, requestLines, he, hp, hround, hsource, hw, larbHeld, hl]

/-- Settles O24: the lines of every phase, and the record the request phase leaves. -/
theorem requestPhaseReadsWords : Obligations.RequestPhaseReadsWords := by
  unfold Obligations.RequestPhaseReadsWords
  refine ⟨linesDriven_all, fun s r a b hr hp => ⟨⟨_, exec_eq _ s, ?_⟩, fun e hrole hw he herr hv ha hb => ?_⟩⟩
  · rw [show effect (.requestPhase a b) s.hw = _ from readRequestPhase_eq hr hp a b]
    rfl
  · rw [exec_eq, show effect (.requestPhase a b) s.hw = _ from readRequestPhase_eq hr hp a b, ha, hb, wired_idleLines,
      wired_idleLines, requestError_own hrole hw he]
    simp [setRecord, TxRecord.noteVoid, requestLines, he, herr, hv, drivesVoid]

/-! ### The response phase (R37) -/

/-- What the response phase finds wrong in the lines read: parity, framing, LRSP or the winner's line (R35). -/
def responseError (k : Kind) (r : TxRecord) (l : Lines) : Bool :=
  !(parityEven l.ldat l.lpar) || (readResponse k l.ldat).isNone || !l.lrsp || !larbHeld r l

theorem readResponsePhase_eq {x : Transaction} (hr : h.lbc.record = some r) (hp : r.phase = .response)
    (hx : recordRequest r = some x) (o : Lines) : readResponsePhase o h = setRecord
      ({ r with response := readResponse x.kind (wired o (responseLines h r)).ldat, phase := .completion }.noteVoid
        (responseError x.kind r (wired o (responseLines h r))) (wired o (responseLines h r)).lvoid) h := by
  unfold readResponsePhase
  rw [hr, show (some r).bind recordRequest = some x from hx]
  exact if_pos hp

/-- A response of the kind, read with its parity while LRSP and the winner's line are held, is read without a void. -/
theorem readResponsePhase_clean {x : Transaction} {o : Lines} {y : Response} (hr : h.lbc.record = some r)
    (hp : r.phase = .response) (hx : recordRequest r = some x) (hy : y ∈ responsesOf x.kind)
    (hw : (wired o (responseLines h r)).ldat = responseWord y)
    (hpar : (wired o (responseLines h r)).lpar = parityOf (responseWord y))
    (hl : (wired o (responseLines h r)).lrsp = true) (harb : larbHeld r (wired o (responseLines h r)) = true)
    (ho : o.lvoid = false) (he : r.error = false) (hv : r.voidSeen = false) :
    readResponsePhase o h = setRecord { r with response := some y, phase := .completion } h := by
  obtain ⟨hresp, hparity⟩ := responseWordsAndParity
  have hread := (hresp x.kind y).1 hy
  have hvoid : (wired o (responseLines h r)).lvoid = false := by
    simp [ho, (responseLines_frame h r).2.2.1, drivesVoid, he]
  have herr : responseError x.kind r (wired o (responseLines h r)) = false := by
    rw [responseError, hw, hpar, hread, (hparity _).1, hl, harb]
    rfl
  rw [readResponsePhase_eq hr hp hx, hw, hread, herr, hvoid]
  simp [TxRecord.noteVoid, he, hv]

/-- What a station that does not respond reads in the response phase. -/
theorem wired_responseLines_silent (hrole : r.role ≠ .responder) (hl : r.lrsp = false) (o : Lines) :
    wired o (responseLines h r) = { o with larb := o.larb ||| drivesLarb h.id r, lvoid := o.lvoid || drivesVoid h.scu.station r } := by
  rw [responseLines_silent (.inl hrole)]
  simp [wired, idleLines, hl]

theorem larbHeld_wired (o l : Lines) : larbHeld r (wired o l) = (larbHeld r o || l.larb.getLsbD r.winner.val) := by
  simp [larbHeld]

/-- Settles O28: a clean word, an error found, and LVOID read. -/
theorem responseRead : Obligations.ResponseRead := by
  unfold Obligations.ResponseRead
  intro s r x o hr hp hx
  have hexec : ∀ g, readResponsePhase o s.hw = g → exec (.responsePhase o) s = .next { s with hw := g } := by
    rintro g rfl
    exact exec_eq _ s
  obtain ⟨hlarb, hlrsp, hlvoid, -⟩ := responseLines_frame s.hw r
  refine ⟨fun y hy => ⟨fun hrole hl hw hpar hrsp hov harb he hv => ⟨_, hexec _ ?_, rfl⟩,
    fun hrole hl hown hw hpar hov harb he hv => ⟨_, hexec _ ?_, rfl⟩⟩, fun hrole hl hwrong => ?_, fun hov => ?_⟩
  · have hwire := wired_responseLines_silent (h := s.hw) hrole hl o
    refine readResponsePhase_clean hr hp hx hy (by rw [hwire, hw]) (by rw [hwire, hpar]) (by rw [hwire, hrsp]) ?_ hov he hv
    rw [larbHeld_wired, hlarb]
    obtain ⟨hi, hwin⟩ | harb := harb
    · simp [drivesLarb, hi, hwin, stationBit]
    · simp [larbHeld, harb]
  · have hlines := responseLines_word (h := s.hw) hrole hown
    refine readResponsePhase_clean hr hp hx hy (by simp [hlines, hw]) (by simp [hlines, hpar]) (by simp [hlrsp, hl]) ?_ hov he hv
    simp [larbHeld, harb]
  · have herr : responseError x.kind r (wired o (responseLines s.hw r)) = true := by
      rw [wired_responseLines_silent hrole hl]
      obtain hpar | hread | hrsp | ⟨hi, harb⟩ := hwrong
      · simp [responseError, hpar]
      · simp [responseError, hread]
      · simp [responseError, hrsp]
      · have harb : o.larb[r.winner.val] = false := harb
        simp [responseError, larbHeld, drivesLarb, hi, harb]
    rw [hexec _ (readResponsePhase_eq hr hp hx o), herr, wired_responseLines_silent hrole hl]
    simp [TxRecord.noteVoid, setRecord]
  · refine ⟨_, _, hexec _ (readResponsePhase_eq hr hp hx o), rfl, ?_, rfl⟩
    simp [TxRecord.noteVoid, hov]

end Sys2Proof.Machine
end

section
/-! Claims taken by their own commands (R53, log 5): the claims that a free home settles at once, and those it takes when it
is freed, are the ones its commands take, one after another. -/

namespace Sys2Proof.Machine

/-! ### Claims that can be taken by their commands -/

/-- A free home waits for no rebuild timer that has expired: for the claims of its list. -/
def claimsReady (h : Hw) : Prop :=
  h.htu.engaged = .free → .rebuildExpiry ∈ h.htu.claims → h.htu.rebuildTimer = none

/-- The claims that have reached a free home hold no lock transaction, and no expiry of a timer that runs. -/
def arrivalsReady (h : Hw) : Prop :=
  h.htu.engaged = .free → .lockTransaction ∉ h.htu.arriving
    ∧ (.rebuildExpiry ∈ h.htu.arriving → h.htu.rebuildTimer = none)

theorem takeTransaction_engaged (h : Hw) : (takeTransaction h).htu.engaged = .transaction := by
  obtain ⟨d, hd⟩ := takeEngaged_htu (h.setHtu (h.htu.engage .transaction))
  rw [takeTransaction, hd]
  rfl

theorem claimsReady_table : TableKept claimsReady where
  quiet hq hp := by
    obtain ⟨-, hh, -⟩ := hq
    rwa [claimsReady, hh]
  claimed {h c} _ _ hp := by
    intro hf
    have hf' : h.htu.engaged = .free := by simpa using hf
    rw [addClaim_htu, receive_atFree hf']
    exact hp hf'
  moved _ _ _ _ _ hp := hp
  postedUp _ hp := hp
  backlog _ hp := hp
  stalled _ _ _ hp := hp
  postedDown hp := hp
  flagged _ _ hp := hp
  awaited _ _ hp := hp
  online _ _ := fun _ _ => rfl
  changed _ _ hp := hp
  accepted _ _ _ _ hp := hp
  declined _ _ _ _ hp := hp
  purging _ _ _ _ _ _ := fun hf => by cases hf
  arrived _ _ _ hp := hp
  headed _ hc _ hp := fun hf hm => hp hf (by rw [hc]; exact List.mem_cons_of_mem _ hm)
  metArrived _ _ _ := fun hf => by rw [takeTransaction_engaged] at hf; cases hf
  met _ _ _ := fun hf => by rw [takeTransaction_engaged] at hf; cases hf
  decided {h} hp := by
    obtain ⟨d, hd⟩ := takeEngaged_htu h
    rwa [claimsReady, hd]

theorem arrivalsReady_table : TableKept arrivalsReady where
  quiet hq hp := by
    obtain ⟨-, hh, -⟩ := hq
    rwa [arrivalsReady, hh]
  claimed {h c} hl hx hp := by
    intro hf
    have hf' : h.htu.engaged = .free := by simpa using hf
    obtain ⟨h1, h2⟩ := hp hf'
    rw [addClaim_htu, receive_atFree hf']
    simp only [List.mem_append, List.mem_singleton]
    exact ⟨fun hm => hm.elim h1 fun he => hl he.symm, fun hm => hm.elim h2 fun he => absurd he.symm hx⟩
  moved _ _ _ _ _ hp := hp
  postedUp _ hp := hp
  backlog _ hp := hp
  stalled _ _ _ hp := hp
  postedDown hp := hp
  flagged _ _ hp := hp
  awaited _ _ hp := hp
  online _ hp := fun hf => ⟨(hp hf).1, fun _ => rfl⟩
  changed _ _ hp := hp
  accepted _ _ _ _ hp := hp
  declined _ _ _ _ hp := hp
  purging _ _ _ _ _ _ := fun hf => by cases hf
  arrived _ ha _ hp := fun hf => by
    obtain ⟨h1, h2⟩ := hp hf
    rw [ha] at h1 h2
    exact ⟨fun hm => h1 (List.mem_cons_of_mem _ hm), fun hm => h2 (List.mem_cons_of_mem _ hm)⟩
  headed _ _ _ hp := hp
  metArrived _ _ _ := fun hf => by rw [takeTransaction_engaged] at hf; cases hf
  met _ _ _ := fun hf => by rw [takeTransaction_engaged] at hf; cases hf
  decided {h} hp := by
    obtain ⟨d, hd⟩ := takeEngaged_htu h
    rwa [arrivalsReady, hd]

/-! ### The command that takes a claim -/

theorem takeArrived_of_head {h : Hw} {c : Claim} {rest : List Claim} {p : Claim → Bool} (hf : h.htu.engaged = .free)
    (ha : h.htu.arriving = c :: rest) (hp : p c = true) :
    takeArrived p h = takeClaim c (h.setHtu { h.htu with arriving := rest }) := by
  simp [takeArrived, hf, ha, hp]

/-- The oldest claim that has reached a free home is taken by the command of its row. -/
theorem claimRow_effect {h : Hw} {c : Claim} {rest : List Claim} (hf : h.htu.engaged = .free)
    (ha : h.htu.arriving = c :: rest) (hl : c ≠ .lockTransaction) (hx : c = .rebuildExpiry → h.htu.rebuildTimer = none) :
    effect (claimRow c) h = takeClaim c (h.setHtu { h.htu with arriving := rest }) := by
  cases c
  case lockTransaction => exact absurd rfl hl
  case selfRequest => exact takeArrived_of_head hf ha rfl
  case grantOutcome => exact takeArrived_of_head hf ha rfl
  case internalOutcome => exact takeArrived_of_head hf ha rfl
  case purgeCause => exact takeArrived_of_head hf ha rfl
  case rebuildExpiry =>
    show rebuildExpiry h = _
    rw [rebuildExpiry, hx rfl]
    exact takeArrived_of_head hf ha rfl

/-- The claims a free home settles are taken each by its own command (R53). -/
theorem takeArrivals_taken {h : Hw} (pending : List Instr) (k : Nat) (hp : arrivalsReady h) :
    arrivalsTaken k { hw := h, pending } { hw := takeArrivals k h, pending } := by
  induction k generalizing h with
  | zero => rfl
  | succ k ih =>
    unfold arrivalsTaken
    split
    · next c rest hf ha =>
      have ha : h.htu.arriving = c :: rest := ha
      obtain ⟨hl, hx⟩ := hp hf
      rw [ha] at hl hx
      have he : effect (claimRow c) h = takeArrived (fun _ => true) h := by
        rw [takeArrived_of_head hf ha rfl]
        exact claimRow_effect hf ha (fun he => hl (he ▸ List.mem_cons_self)) fun he => hx (he ▸ List.mem_cons_self)
      refine ⟨_, exec_eq _ _, ?_⟩
      rw [he]
      exact ih (arrivalsReady_table.take.takeArrived _ hp)
    · next hne =>
      rw [takeArrivals_idle]
      by_contra hc
      obtain ⟨hf, ha⟩ := not_or.mp hc
      obtain ⟨c, rest, hcr⟩ := List.exists_cons_of_ne_nil ha
      exact hne c rest (not_not.mp hf) hcr

theorem settleArrivals_settled {s : State} (hx : expiryOnce s.hw.htu) (hl : .lockTransaction ∉ s.hw.htu.arriving) :
    arrivalsSettled s { s with hw := settleArrivals s.hw } :=
  takeArrivals_taken s.pending _ fun _ => ⟨hl, fun hm => hx (List.mem_append_right _ hm)⟩

theorem settleArrivals_idle {h : Hw} (hn : h.htu.engaged ≠ .free ∨ h.htu.arriving = []) : settleArrivals h = h :=
  takeArrivals_idle h hn _

/-! ### The claims that waited -/

/-- A lock transaction presented to a free home engages it, and any other claim comes before those that reached it. -/
theorem presented_effect {s : State} {c : Claim} {rest : List Claim} (hf : s.hw.htu.engaged = .free)
    (hx : c = .rebuildExpiry → s.hw.htu.rebuildTimer = none) :
    effect (claimRow c) (s.presented c rest).hw = takeClaim c (s.hw.setHtu { s.hw.htu with claims := rest }) := by
  by_cases hl : c = .lockTransaction
  · subst hl
    rfl
  · have hs : (s.presented c rest).hw = s.hw.setHtu { s.hw.htu with claims := rest, arriving := c :: s.hw.htu.arriving } := by
      simp [State.presented, hl, Hw.setHtu]
    rw [hs]
    exact claimRow_effect (by exact hf) rfl hl hx

/-- The claims a freed home takes from its list are taken each by its own command (R53). -/
theorem takeWaiting_taken {h : Hw} (pending : List Instr) (k : Nat) (hp : claimsReady h) :
    claimsTaken k { hw := h, pending } { hw := takeWaiting k h, pending } := by
  induction k generalizing h with
  | zero => rfl
  | succ k ih =>
    unfold claimsTaken
    split
    · next c rest hf hc =>
      have hc : h.htu.claims = c :: rest := hc
      have hf : h.htu.engaged = .free := hf
      have hx : c = .rebuildExpiry → h.htu.rebuildTimer = none := fun he =>
        hp hf (by rw [hc, he]; exact List.mem_cons_self)
      have hhead : takeHead h = takeClaim c (h.setHtu { h.htu with claims := rest }) := by
        simp [takeHead, hf, hc]
      refine ⟨_, exec_eq _ _, ?_⟩
      rw [presented_effect (s := { hw := h, pending }) hf hx, takeWaiting, hhead]
      have hk := claimsReady_table.take.takeHead hp
      rw [hhead] at hk
      exact ih hk
    · next hne =>
      rw [takeWaiting_idle]
      by_contra hcon
      obtain ⟨hf, ha⟩ := not_or.mp hcon
      obtain ⟨c, rest, hcr⟩ := List.exists_cons_of_ne_nil ha
      exact hne c rest (not_not.mp hf) hcr

end Sys2Proof.Machine
end

section
/-! O21: an arbitration by its two rounds (R27 to R31). -/

namespace Sys2Proof.Machine

variable {h : Hw}

/-! ### What a win does -/

@[simp] theorem tellWin_lbc (t : Transaction) (h : Hw) : (tellWin t h).lbc = h.lbc := by
  unfold tellWin
  split
  · split <;> rfl
  · split <;> rfl

theorem tellWin_blocks (t : Transaction) (h : Hw) : (tellWin t h).cqu = h.cqu ∧ sameOutside h (tellWin t h) := by
  unfold tellWin
  split
  · split <;> exact ⟨rfl, rfl, rfl, rfl⟩
  · split <;> exact ⟨rfl, rfl, rfl, rfl⟩

/-- The owner of the winning entry is told, and nothing else of the blocks changes (R23, R80). -/
theorem wonBy_told (s : State) (w : StationId) (round : Round) (c : Option Transaction) :
    winnerTold s { s with hw := wonBy w round c s.hw } (if w = s.hw.id then c else none) := by
  have hl : (leaveList round s.hw).rqt = s.hw.rqt ∧ (leaveList round s.hw).htu = s.hw.htu
      ∧ (leaveList round s.hw).cqu = s.hw.cqu ∧ sameOutside s.hw (leaveList round s.hw) := by
    cases round <;> exact ⟨rfl, rfl, rfl, rfl, rfl, rfl⟩
  obtain ⟨hr, hh, hc, hscu, hmbu, hport⟩ := hl
  unfold wonBy
  dsimp only
  generalize (if w = s.hw.id then c else none) = entry
  cases entry with
  | none => exact ⟨fun x hx => (by cases hx), fun _ => rfl, fun x hx => (by cases hx), fun _ => rfl, rfl, rfl, rfl, rfl⟩
  | some x =>
    obtain ⟨tcqu, tscu, tmbu, tport⟩ := tellWin_blocks x (leaveList round s.hw)
    refine ⟨fun y hy hk hq => ?_, fun hn => ?_, fun y hy hk => ?_, fun hn => ?_, tcqu.trans hc, tscu.trans hscu,
      tmbu.trans hmbu, tport.trans hport⟩
    · obtain rfl := Option.some.inj hy
      simp [tellWin, hk, Hw.slot, hr, hq, Hw.setSlot]
    · have hn := hn x rfl
      by_cases hk : x.kind.isSlot = true
      · simp [tellWin, hk, Hw.slot, hr, hn hk]
      · simp only [tellWin, if_neg hk]
        split <;> exact hr
    · obtain rfl := Option.some.inj hy
      simp [tellWin, hk, Kind.isSlot, hh, Hw.setHtu, Htu.engage, engagedBy]
    · have hn := hn x rfl
      by_cases hk : x.kind.isSlot = true
      · simp only [tellWin, hk, if_true]
        split <;> exact hh
      · simp [tellWin, hk, hn, hh]

theorem wonBy_opened (w : StationId) (round : Round) (c : Option Transaction) (h : Hw) :
    (wonBy w round c h).lbc.pointer = w
      ∧ (wonBy w round c h).lbc.record = some (recordOpened w round (if w = h.id then c else none)) := ⟨rfl, rfl⟩

/-- A win of another station, or without a candidate, leaves the lists (R31). -/
theorem wonBy_lists_other {w : StationId} {c : Option Transaction} (hw : w ≠ h.id ∨ c = none) (round : Round) :
    (wonBy w round c h).lbc.priority = h.lbc.priority ∧ (wonBy w round c h).lbc.normal = h.lbc.normal := by
  have he : (if w = h.id then c else none) = none := by obtain hw | hw := hw <;> simp [hw]
  simp [wonBy, he]

theorem wonBy_priority_normal (w : StationId) (c : Option Transaction) (h : Hw) :
    (wonBy w .priority c h).lbc.normal = h.lbc.normal := by
  unfold wonBy
  dsimp only
  split
  · rw [tellWin_lbc]
    rfl
  · rfl

theorem wonBy_normal_priority (w : StationId) (c : Option Transaction) (h : Hw) :
    (wonBy w .normal c h).lbc.priority = h.lbc.priority := by
  unfold wonBy
  dsimp only
  split
  · rw [tellWin_lbc]
    rfl
  · rfl

/-- The own candidate leaves its list (R31). -/
theorem wonBy_priority_own {w : StationId} {x : Transaction} (hw : w = h.id) :
    (wonBy w .priority (some x) h).lbc.priority = h.lbc.priority.eraseP (admissible h) := by
  simp [wonBy, hw, leaveList, takeOut]

theorem wonBy_normal_own {w : StationId} {x : Transaction} (hw : w = h.id) :
    (wonBy w .normal (some x) h).lbc.normal = h.lbc.normal.tail := by
  simp [wonBy, hw, leaveList]

/-! ### The two rounds -/

/-- The oldest admissible entry, with those older that the purge holds back (R28). -/
theorem find?_eraseP {p : Transaction → Bool} {l : List Transaction} {x : Transaction} (hx : l.find? p = some x) :
    ∃ older younger, l = older ++ x :: younger ∧ l.eraseP p = older ++ younger ∧ p x = true ∧ ∀ y ∈ older, p y = false := by
  obtain ⟨hpx, older, younger, hl, hold⟩ := List.find?_eq_some_iff_append.mp hx
  have hold : ∀ y ∈ older, p y = false := fun y hy => by simpa using hold y hy
  refine ⟨older, younger, hl, ?_, hpx, hold⟩
  rw [hl, List.eraseP_append_right _ fun y hy => by simp [hold y hy], List.eraseP_cons_of_pos hpx]

/-- An entry is held back exactly as a GRANT while a purge is in progress (R28). -/
theorem admissible_iff (h : Hw) (y : Transaction) :
    admissible h y = true ↔ ¬(y.kind = .grant ∧ h.htu.purge.isSome = true) := by
  simp [admissible, imp_iff_not_or]

theorem priorityCandidate_eq (h : Hw) : priorityCandidate h =
    if h.scu.station.present = true then
      h.lbc.priority.find? fun y => ¬(y.kind = .grant ∧ h.htu.purge.isSome = true) else none := by
  have hf : (fun y : Transaction => decide ¬(y.kind = .grant ∧ h.htu.purge.isSome = true)) = admissible h := by
    funext y
    rw [Bool.eq_iff_iff, decide_eq_true_eq, admissible_iff]
  rw [priorityCandidate, hf]

theorem normalCandidate_eq (h : Hw) : normalCandidate h =
    if h.scu.station.present = true ∨ h.scu.station = .joining then h.lbc.normal.head? else none := by
  simp [normalCandidate]

theorem holdRounds_none {pl nl : BitVec 16} (hp : winnerAfter h.lbc.pointer (roundLines pl h.id (priorityCandidate h)) = none)
    (hn : winnerAfter h.lbc.pointer (roundLines nl h.id (normalCandidate h)) = none) : holdRounds pl nl h = h := by
  simp [holdRounds, hp, hn]

theorem holdRounds_first {pl : BitVec 16} {w : StationId}
    (hp : winnerAfter h.lbc.pointer (roundLines pl h.id (priorityCandidate h)) = some w) (nl : BitVec 16) :
    holdRounds pl nl h = wonBy w .priority (priorityCandidate h) h := by
  simp [holdRounds, hp]

theorem holdRounds_second {pl nl : BitVec 16} {w : StationId}
    (hp : winnerAfter h.lbc.pointer (roundLines pl h.id (priorityCandidate h)) = none)
    (hn : winnerAfter h.lbc.pointer (roundLines nl h.id (normalCandidate h)) = some w) :
    holdRounds pl nl h = wonBy w .normal (normalCandidate h) h := by
  simp [holdRounds, hp, hn]

theorem arbitrate_closed (pl nl : BitVec 16) (hc : h.scu.station.observes = false ∨ h.lbc.record.isSome = true) :
    arbitrate pl nl h = h := by
  unfold arbitrate
  rw [if_neg]
  rintro ⟨ho, hr⟩
  obtain hc | hc := hc
  · rw [ho] at hc
    cases hc
  · simp_all

theorem arbitrate_open (pl nl : BitVec 16) (ho : h.scu.station.observes = true) (hr : h.lbc.record = none) :
    arbitrate pl nl h = holdRounds pl nl (settleArrivals h) := by
  simp [arbitrate, ho, hr]

/-- The entry a win in the priority round takes with it. -/
theorem wonBy_priority_taken {w : StationId} {x : Transaction} (hw : w = h.id) (hx : priorityCandidate h = some x) :
    ∃ older younger, h.lbc.priority = older ++ x :: younger
      ∧ (wonBy w .priority (priorityCandidate h) h).lbc.priority = older ++ younger
      ∧ ¬(x.kind = .grant ∧ h.htu.purge.isSome = true)
      ∧ ∀ y ∈ older, y.kind = .grant ∧ h.htu.purge.isSome = true := by
  have hf : h.lbc.priority.find? (admissible h) = some x := by
    unfold priorityCandidate at hx
    split at hx
    · exact hx
    · cases hx
  obtain ⟨older, younger, hl, her, hadm, hold⟩ := find?_eraseP hf
  refine ⟨older, younger, hl, ?_, (admissible_iff h x).mp hadm, fun y hy => ?_⟩
  · rw [hx, wonBy_priority_own hw, her]
  · by_contra hc
    have hno := hold y hy
    rw [(admissible_iff h y).mpr hc] at hno
    cases hno

/-- The entry a win in the normal round takes with it. -/
theorem wonBy_normal_taken {w : StationId} {x : Transaction} (hw : w = h.id) (hx : normalCandidate h = some x) :
    h.lbc.normal = x :: (wonBy w .normal (normalCandidate h) h).lbc.normal := by
  have hf : h.lbc.normal.head? = some x := by
    unfold normalCandidate at hx
    split at hx
    · exact hx
    · cases hx
  obtain ⟨rest, hl⟩ := List.head?_eq_some_iff.mp hf
  rw [hx, wonBy_normal_own hw, hl]
  rfl

/-- Settles O21: the rounds at the station that has settled its arrivals. -/
theorem arbitrationOpensRecord : Obligations.ArbitrationOpensRecord := by
  unfold Obligations.ArbitrationOpensRecord
  intro s pl nl rounds
  have hrounds : s.hw.scu.station.observes = true → s.hw.lbc.record = none →
      rounds { s with hw := settleArrivals s.hw } := by
    intro ho hr
    have hexec : exec (.arbitration pl nl) s = .next { s with hw := holdRounds pl nl (settleArrivals s.hw) } := by
      rw [exec_eq, show effect (.arbitration pl nl) s.hw = _ from arbitrate_open pl nl ho hr]
    dsimp only [rounds]
    rw [← priorityCandidate_eq, ← normalCandidate_eq]
    generalize settleArrivals s.hw = h at hexec
    refine ⟨fun h1 h2 => ?_, fun w h1 => ⟨_, hexec, ?_⟩, fun h1 w h2 => ⟨_, hexec, ?_⟩⟩
    · rw [hexec, holdRounds_none h1 h2]
    · rw [holdRounds_first h1]
      exact ⟨⟨rfl, rfl, wonBy_told { s with hw := h } w .priority (priorityCandidate h)⟩, wonBy_priority_normal _ _ _,
        fun x hw hx => wonBy_priority_taken hw hx, fun hn => (wonBy_lists_other hn .priority).1⟩
    · rw [holdRounds_second h1 h2]
      exact ⟨⟨rfl, rfl, wonBy_told { s with hw := h } w .normal (normalCandidate h)⟩, wonBy_normal_priority _ _ _,
        fun x hw hx => wonBy_normal_taken hw hx, fun hn => (wonBy_lists_other hn .normal).2⟩
  refine ⟨fun hc => ?_, fun ho hr => ⟨⟨_, exec_eq _ s⟩, fun hidle => ?_, fun hx hl => ⟨_, settleArrivals_settled hx hl, hrounds ho hr⟩⟩⟩
  · rw [exec_eq, show effect (.arbitration pl nl) s.hw = _ from arbitrate_closed pl nl hc]
  · have hself := hrounds ho hr
    rwa [settleArrivals_idle hidle] at hself

end Sys2Proof.Machine
end

section
/-! O36 to O39: the lock transaction that engages the home is decided, by the tables (R51, R56 to R62, R138). -/

namespace Sys2Proof.Machine

variable {s : State} {x : Transaction} {src : StationId}

/-! ### The claim -/

/-- The request of a lock transaction from a station, as its home's HTU reads it (R51). -/
def requestOf (src : StationId) (x : Transaction) : Request :=
  { kind := x.kind, station := src, slot := x.slot, index := indexOf x.lock, mode := x.mode, tryFlag := x.tryFlag
    endFlag := x.endFlag }

theorem busRequest_claim (hc : lockClaim s x src) : busRequest s.hw = some (requestOf src x) := by
  obtain ⟨-, -, -, r, w, hr, -, -, hw, hx, hsrc⟩ := hc
  simp [busRequest, hr, hw, hx, hsrc, requestOf]

/-- The claim decides its transaction. -/
theorem takeEngaged_claim (hc : lockClaim s x src) : takeEngaged s.hw = recordDecision (requestOf src x) s.hw := by
  have hq := busRequest_claim hc
  obtain ⟨he, hd, hk, r, w, hr, hrole, hph, -⟩ := hc
  simp [takeEngaged, hq, he, hd, requestOf, hk, hr, hrole, hph]

/-- The decision on the claim recorded. -/
def claimDecision (s : State) (src : StationId) (x : Transaction) : Decision :=
  { request := requestOf src x
    response := (decideRequest s.hw.home s.hw.htu (requestOf src x)).1
    changes := (decideRequest s.hw.home s.hw.htu (requestOf src x)).2 }

theorem exec_claim (hc : lockClaim s x src) :
    exec .lockTransactionClaim s = .next { s with hw := recordDecision (requestOf src x) s.hw } := by
  rw [exec_eq, show effect .lockTransactionClaim s.hw = _ from takeEngaged_claim hc]

theorem recordDecision_decision : (recordDecision (requestOf src x) s.hw).htu.decision = some (claimDecision s src x) := rfl

/-- Settles O36: LSTALL released and the decision recorded. -/
theorem lockClaimRecordsDecision : Obligations.LockClaimRecordsDecision := by
  unfold Obligations.LockClaimRecordsDecision
  intro s x src hc
  have hexec := exec_claim hc
  obtain ⟨-, -, -, r, w, hr, -⟩ := hc
  refine ⟨_, claimDecision s src x, r, hexec, rfl, rfl, hr, ?_, rfl, rfl, rfl, rfl, rfl⟩
  simp [recordDecision, setStall, hr, Hw.setHtu]

/-! ### The tables a decision is made by -/

theorem headWaiter_isNone (i : LockIndex) (t : Htu) :
    (headWaiter i t).isNone = true ↔ ∀ w ∈ t.waiters, w.index ≠ i := by
  simp [headWaiter]

theorem holderFree_iff (t : Htu) : holderFree t = true ↔ t.holders.length < 512 := by
  simp [holderFree, Config.holderCapacity]

theorem waiterFree_iff (t : Htu) : waiterFree t = true ↔ t.waiters.length < 192 := by
  simp [waiterFree, Config.waiterCapacity]

/-- The entries of a list that a predicate does not name are those outside the ones it names. -/
theorem filter_not_mem_filter {α : Type} [DecidableEq α] (p : α → Prop) [DecidablePred p] (l : List α) :
    (l.filter fun e => e ∉ l.filter fun e => p e) = l.filter fun e => ¬p e :=
  List.filter_congr fun e he => by simp [he]

/-- The tables after the supersede step (R56). -/
theorem without_superseded (t : Htu) (r : Request) :
    (t.without (superseded r t)).waiters = (t.waiters.filter fun w => ¬(w.station = r.station ∧ w.slot = r.slot))
      ∧ (t.without (superseded r t)).holders = t.holders.filter fun e =>
        ¬(e.station = r.station ∧ e.slot = r.slot ∧ (e.state = .offered ∨ e.index = r.index)) :=
  ⟨filter_not_mem_filter _ t.waiters, filter_not_mem_filter _ t.holders⟩

/-- A request may be granted in the tables `t` (R58). -/
def grantable (t : Htu) (r : Request) : Prop :=
  (headWaiter r.index t).isNone = true ∧ compatible r.mode (holdersOf r.index t) = true

theorem grantable_iff (t : Htu) (r : Request) : grantable t r ↔ (∀ w ∈ t.waiters, w.index ≠ r.index)
    ∧ ∀ e ∈ t.holders, e.index = r.index → r.mode = .shared ∧ e.mode = .shared := by
  rw [grantable, headWaiter_isNone, compatible_iff]
  refine and_congr_right fun _ => ⟨fun hn e he hi => not_not.mp fun hc => hn ⟨e, he, hi, hc⟩, ?_⟩
  rintro hall ⟨e, he, hi, hc⟩
  exact hc (hall e he hi)

/-! ### ACQUIRE (R56 to R58) -/

/-- Every decision on an ACQUIRE removes the superseded entries, and adds at most one entry. -/
theorem decideAcquire_drops (hs : HomeState) (t : Htu) (r : Request) :
    (decideAcquire hs t r).2.dropWaiters = (superseded r t).dropWaiters
      ∧ (decideAcquire hs t r).2.dropHolders = (superseded r t).dropHolders
      ∧ (decideAcquire hs t r).2.share = none ∧ (decideAcquire hs t r).2.unawait = none := by
  unfold decideAcquire
  dsimp only
  split
  · exact ⟨rfl, rfl, rfl, rfl⟩
  · split
    · exact ⟨rfl, rfl, rfl, rfl⟩
    · split
      · exact ⟨rfl, rfl, rfl, rfl⟩
      · split
        · exact ⟨rfl, rfl, rfl, rfl⟩
        · split <;> exact ⟨rfl, rfl, rfl, rfl⟩

section

variable {hs : HomeState} {t : Htu} {r : Request}

theorem decideAcquire_rebuilding : decideAcquire .rebuilding t r = (.refused .rebuilding, superseded r t) := by
  simp [decideAcquire]

theorem decideAcquire_granted (hn : hs ≠ .rebuilding) (hg : grantable (t.without (superseded r t)) r)
    (hf : holderFree (t.without (superseded r t)) = true) :
    decideAcquire hs t r = (.granted, { superseded r t with addHolder := some (heldEntry r) }) := by
  simp [decideAcquire, hn, hg.1, hg.2, hf]

/-- A request that cannot be granted at once leaves the rest to its try flag, the queue and the tables (R58). -/
theorem decideAcquire_waits (hn : hs ≠ .rebuilding)
    (hg : ¬(grantable (t.without (superseded r t)) r ∧ holderFree (t.without (superseded r t)) = true)) :
    (r.tryFlag = true → decideAcquire hs t r = (.busy, superseded r t))
      ∧ (r.tryFlag = false → grantable (t.without (superseded r t)) r →
          decideAcquire hs t r = (.refused .holdFull, superseded r t))
      ∧ (r.tryFlag = false → ¬grantable (t.without (superseded r t)) r → waiterFree (t.without (superseded r t)) = true →
          decideAcquire hs t r = (.queued, { superseded r t with addWaiter := some (waiterEntry r) }))
      ∧ (r.tryFlag = false → ¬grantable (t.without (superseded r t)) r → waiterFree (t.without (superseded r t)) = false →
          decideAcquire hs t r = (.refused .waitFull, superseded r t)) := by
  unfold grantable at hg ⊢
  unfold decideAcquire
  dsimp only
  rw [if_neg hn, if_neg hg]
  refine ⟨fun ht => if_pos ht, fun ht hgr => ?_, fun ht hgr hw => ?_, fun ht hgr hw => ?_⟩
  · rw [if_neg (by simp [ht])]
    exact if_pos hgr
  · rw [if_neg (by simp [ht]), if_pos hw]
    exact if_neg hgr
  · rw [if_neg (by simp [ht]), if_neg hgr]
    exact if_neg (by simp [hw])

/-- Nothing but GRANTED adds a holder (R58). -/
theorem decideAcquire_addHolder (hn : hs ≠ .rebuilding)
    (hg : ¬(grantable (t.without (superseded r t)) r ∧ holderFree (t.without (superseded r t)) = true)) :
    (decideAcquire hs t r).2.addHolder = none := by
  obtain ⟨hbusy, hfull, hqueued, hwaitFull⟩ := decideAcquire_waits hn hg
  cases ht : r.tryFlag
  · by_cases hgr : grantable (t.without (superseded r t)) r
    · rw [hfull ht hgr]
      rfl
    · cases hw : waiterFree (t.without (superseded r t))
      · rw [hwaitFull ht hgr hw]
        rfl
      · rw [hqueued ht hgr hw]
        rfl
  · rw [hbusy ht]
    rfl

end

/-- Settles O37: the supersede step, and the first case of R58 that applies. -/
theorem acquireDecision : Obligations.AcquireDecision := by
  unfold Obligations.AcquireDecision
  intro s x src hc hk i ws hs gr held waiter
  have hd : decideRequest s.hw.home s.hw.htu (requestOf src x) = decideAcquire s.hw.home s.hw.htu (requestOf src x) := by
    simp [decideRequest, requestOf, hk]
  obtain ⟨hws, hhs⟩ := without_superseded s.hw.htu (requestOf src x)
  obtain ⟨hdw, hdh, hsh, hun⟩ := decideAcquire_drops s.hw.home s.hw.htu (requestOf src x)
  have hgr : gr ↔ grantable (s.hw.htu.without (superseded (requestOf src x) s.hw.htu)) (requestOf src x) := by
    rw [grantable_iff, hws, hhs]
    rfl
  have hroom : hs.length < 512 ↔ holderFree (s.hw.htu.without (superseded (requestOf src x) s.hw.htu)) = true := by
    rw [holderFree_iff, hhs]
    rfl
  have hwait : ws.length < 192 ↔ waiterFree (s.hw.htu.without (superseded (requestOf src x) s.hw.htu)) = true := by
    rw [waiterFree_iff, hws]
    rfl
  refine ⟨_, _, exec_claim hc, recordDecision_decision, ?_, ?_, ?_, ?_, fun hh => ?_, fun hh => ?_⟩
  · simp only [claimDecision, hd, Htu.without, hdw]
    exact hws
  · simp only [claimDecision, hd, Htu.without, hdh]
    exact hhs
  · rw [claimDecision, hd, hsh]
  · rw [claimDecision, hd, hun]
  · rw [claimDecision, hd, hh, decideAcquire_rebuilding]
    exact ⟨rfl, rfl, rfl⟩
  · have hn : s.hw.home ≠ .rebuilding := by simp [hh]
    simp only [claimDecision, hd]
    refine ⟨fun hg => ?_, fun hg => ?_⟩
    · rw [decideAcquire_granted hn (hgr.mp hg.1) (hroom.mp hg.2)]
      exact ⟨rfl, rfl, rfl⟩
    · rw [hgr, hroom] at hg
      obtain ⟨hbusy, hfull, hqueued, hwaitFull⟩ := decideAcquire_waits hn hg
      refine ⟨?_, fun ht => ?_, fun ht hgr' => ?_, fun ht hng hw => ?_, fun ht hng hw => ?_⟩
      · exact decideAcquire_addHolder hn hg
      · rw [hbusy ht]
        exact ⟨rfl, rfl⟩
      · rw [hfull ht (hgr.mp hgr')]
        exact ⟨rfl, rfl⟩
      · rw [hqueued ht (mt hgr.mpr hng) (hwait.mp hw)]
        exact ⟨rfl, rfl⟩
      · rw [hwaitFull ht (mt hgr.mpr hng) (Bool.eq_false_iff.mpr (mt hwait.mpr (Nat.not_lt.mpr hw)))]
        exact ⟨rfl, rfl⟩

/-! ### RELEASE, DOWNGRADE and CANCEL (R60 to R62) -/

/-- A search finds the one element its predicate names. -/
theorem find?_of_unique {α : Type} {p : α → Bool} {l : List α} {e : α} (he : e ∈ l) (hp : p e = true)
    (hu : ∀ f ∈ l, p f = true → f = e) : l.find? p = some e := by
  cases hf : l.find? p with
  | none => exact absurd hp (List.find?_eq_none.mp hf e he)
  | some f => rw [hu f (List.mem_of_find?_eq_some hf) (List.find?_some hf)]

section

variable {t : Htu} {r : Request} {e : Holder}

/-- The entry is one of the requester's on the lock. -/
def isMine (r : Request) (e : Holder) : Prop := e.index = r.index ∧ e.station = r.station ∧ e.slot = r.slot

theorem heldOf_eq_some (hu : ∀ e ∈ t.holders, ∀ f ∈ t.holders, isMine r e → isMine r f → e = f) (he : e ∈ t.holders)
    (hm : isMine r e) (hs : e.state = .held) : heldOf t r = some e := by
  obtain ⟨h1, h2, h3⟩ := hm
  refine find?_of_unique he (by simp [h1, h2, h3, hs]) fun f hf hp => ?_
  simp only [decide_eq_true_eq] at hp
  exact hu f hf e he ⟨hp.1, hp.2.1, hp.2.2.1⟩ ⟨h1, h2, h3⟩

theorem heldOf_eq_none (hn : ∀ e ∈ t.holders, isMine r e → e.state ≠ .held) : heldOf t r = none := by
  refine List.find?_eq_none.mpr fun e he hp => ?_
  simp only [decide_eq_true_eq] at hp
  exact hn e he ⟨hp.1, hp.2.1, hp.2.2.1⟩ hp.2.2.2

/-- The waiter entry is one of the requester's on the lock. -/
def isWaiting (r : Request) (w : Waiter) : Prop := w.index = r.index ∧ w.station = r.station ∧ w.slot = r.slot

theorem find?_waiter_eq_some {w : Waiter} (hu : ∀ w ∈ t.waiters, ∀ v ∈ t.waiters, isWaiting r w → isWaiting r v → w = v)
    (hw : w ∈ t.waiters) (hm : isWaiting r w) :
    (t.waiters.find? fun w => w.index = r.index ∧ w.station = r.station ∧ w.slot = r.slot) = some w :=
  find?_of_unique hw (decide_eq_true hm) fun v hv hp => hu v hv w hw (by simpa [isWaiting] using hp) hm

theorem find?_waiter_eq_none (hn : ∀ w ∈ t.waiters, ¬isWaiting r w) :
    (t.waiters.find? fun w => w.index = r.index ∧ w.station = r.station ∧ w.slot = r.slot) = none :=
  List.find?_eq_none.mpr fun w hw hp => hn w hw (by simpa [isWaiting] using hp)

theorem find?_offer_eq_some (hu : ∀ e ∈ t.holders, ∀ f ∈ t.holders, isMine r e → isMine r f → e = f)
    (he : e ∈ t.holders) (hm : isMine r e) (hs : e.state = .offered) :
    t.holders.find? (isOfferTo r.index r.station r.slot) = some e := by
  obtain ⟨h1, h2, h3⟩ := hm
  refine find?_of_unique he (by simp [isOfferTo, h1, h2, h3, hs]) fun f hf hp => ?_
  simp only [isOfferTo, Bool.and_eq_true, decide_eq_true_eq] at hp
  exact hu f hf e he ⟨hp.1.1.1, hp.1.1.2, hp.1.2⟩ ⟨h1, h2, h3⟩

theorem find?_offer_eq_none (hn : ∀ e ∈ t.holders, isMine r e → e.state ≠ .offered) :
    t.holders.find? (isOfferTo r.index r.station r.slot) = none := by
  refine List.find?_eq_none.mpr fun e he hp => ?_
  simp only [isOfferTo, Bool.and_eq_true, decide_eq_true_eq] at hp
  exact hn e he ⟨hp.1.1.1, hp.1.1.2, hp.1.2⟩ hp.2

end

/-- Settles O38: the requester's one entry in each table. -/
theorem releaseDowngradeCancelDecisions : Obligations.ReleaseDowngradeCancelDecisions := by
  unfold Obligations.ReleaseDowngradeCancelDecisions
  intro s x src hc mine waits hu hw
  have hkind : ∀ k, x.kind = k → (requestOf src x).kind = k := fun _ hk => hk
  refine ⟨_, claimDecision s src x, exec_claim hc, recordDecision_decision, fun hk => ?_, fun hk => ?_, fun hk => ?_⟩
  · simp only [claimDecision, decideRequest, hkind _ hk, decideRelease]
    refine ⟨fun e he hm hst => ?_, fun hn => ?_⟩
    · rw [heldOf_eq_some (r := requestOf src x) hu he hm hst]
      exact ⟨rfl, rfl⟩
    · rw [heldOf_eq_none (r := requestOf src x) hn]
      exact ⟨rfl, rfl⟩
  · simp only [claimDecision, decideRequest, hkind _ hk, decideDowngrade]
    refine ⟨fun hh => ?_, fun hh => ⟨fun e he hm hst => ?_, fun hn => ?_⟩⟩
    · rw [if_pos hh]
      exact ⟨rfl, rfl⟩
    · rw [if_neg (by simp [hh]), heldOf_eq_some (r := requestOf src x) hu he hm hst]
      dsimp only
      split <;> exact ⟨rfl, rfl⟩
    · rw [if_neg (by simp [hh]), heldOf_eq_none (r := requestOf src x) hn]
      exact ⟨rfl, rfl⟩
  · simp only [claimDecision, decideRequest, hkind _ hk, decideCancel]
    refine ⟨fun w hwm hww => ?_, fun hnone => ?_⟩
    · rw [find?_waiter_eq_some (r := requestOf src x) hw hwm hww]
      exact ⟨rfl, rfl⟩
    · rw [find?_waiter_eq_none (r := requestOf src x) hnone]
      refine ⟨fun e he hm hst => ?_, fun hn => ?_⟩
      · rw [find?_offer_eq_some (r := requestOf src x) hu he hm hst]
        exact ⟨rfl, rfl⟩
      · rw [find?_offer_eq_none (r := requestOf src x) hn]
        exact ⟨rfl, rfl⟩

end Sys2Proof.Machine
end

section
/-! O25 and O26: the observation phase, from its start to its close (R33 to R36, R51, R53). -/

namespace Sys2Proof.Machine

variable {h : Hw} {r : TxRecord} {x : Transaction}

/-! ### Voids noted -/

/-- The winner's line reads released exactly where no station holds it (R31, R35). -/
theorem larbHeld_eq_false {l : Lines} (hl : l.larb = drivesLarb h.id r) (o : Lines) :
    larbHeld r (wired o l) = false ↔ larbReleased h.id r o := by
  have hown : (drivesLarb h.id r).getLsbD r.winner.val = true ↔ r.role = .initiator ∧ r.winner = h.id := by
    unfold drivesLarb
    split
    · next hi => simp [hi, stationBit, eq_comm, Fin.ext_iff]
    · next hi => simp [hi]
  rw [larbHeld_wired, hl, Bool.or_eq_false_iff, larbReleased, ← hown, Bool.not_eq_true]
  rfl

/-- A record that notes the line released, LVOID read and the void this station drives has noted what it may. -/
theorem voidNoted_of {own : StationId} {r' : TxRecord} {o : Lines} {held v : Bool}
    (hheld : held = false ↔ larbReleased own r o) (he : r'.error = (r.error || !held))
    (hv : r'.voidSeen = (r.voidSeen || !held || (o.lvoid || v))) (hd : r.error = false → v = false) :
    voidNoted own r r' o := by
  rw [voidNoted, ← hheld, he, hv]
  refine ⟨?_, by simp, fun ho hn => ?_⟩
  · rintro (ho | hh | hs)
    · simp [ho]
    · simp [hh]
    · simp [hs]
  · obtain ⟨hre, hh⟩ := Bool.or_eq_false_iff.mp hn
    simp [ho, hh, hd hre]

/-! ### The start of the observation phase -/

/-- The record once the observation phase has begun, before this station responds. -/
def observingRecord (r : TxRecord) (o : Lines) (h : Hw) : TxRecord :=
  { r with phase := .observing, stallSeen := o.lstall }.noteVoid
    (!larbHeld r (wired o { idleLines with larb := drivesLarb h.id r })) o.lvoid

/-- The record of a station that responds. -/
def respondingRecord (r : TxRecord) (o : Lines) (lstall : Bool) (h : Hw) : TxRecord :=
  { observingRecord r o h with role := .responder, lrsp := true, lstall }

section

variable (hr : h.lbc.record = some r) (hp : r.phase = .observation) (o : Lines)
include hr hp

theorem startObservation_home (hn : responds h r = .home) : startObservation o h =
    setRecord (respondingRecord r o (decide ((settleArrivals h).htu.engaged ≠ .free)) h)
      ((settleArrivals h).setHtu (settleArrivals h).htu.meetTransaction) := by
  simp only [startObservation, hr, hp, if_true, hn]
  rfl

theorem startObservation_target (hn : responds h r = .target) :
    startObservation o h = setRecord (respondingRecord r o r.lstall h) h := by
  simp only [startObservation, hr, hp, if_true, hn]
  rfl

theorem startObservation_no (hn : responds h r = .no) :
    startObservation o h = setRecord (observingRecord r o h) h := by
  simp only [startObservation, hr, hp, if_true, hn]
  rfl

end

/-- The observation phase notes the same void, whatever this station answers (R34, R35). -/
theorem voidNoted_observing {r' : TxRecord} {o : Lines} (he : r'.error = (observingRecord r o h).error)
    (hv : r'.voidSeen = (observingRecord r o h).voidSeen) : voidNoted h.id r r' o :=
  voidNoted_of (v := false) (larbHeld_eq_false (l := { idleLines with larb := drivesLarb h.id r }) rfl o) he
    (hv.trans (by rw [Bool.or_false]; rfl)) fun _ => rfl

/-- The station can respond: it has found no error, is not the winner, and is present (R33). -/
def able (h : Hw) (r : TxRecord) : Prop := r.error = false ∧ r.role ≠ .initiator ∧ h.scu.station.present = true

theorem responds_home (hx : recordRequest r = some x) (ha : able h r) (hk : x.kind.isLock = true)
    (hh : homeOf x.lock = h.id) : responds h r = .home := by
  obtain ⟨he, hr, hp⟩ := ha
  simp [responds, hx, he, hr, hp, hk, hh]

theorem responds_target (hx : recordRequest r = some x) (ha : able h r) (hk : x.kind = .grant)
    (ht : x.target = h.id) : responds h r = .target := by
  obtain ⟨he, hr, hp⟩ := ha
  simp [responds, hx, he, hr, hp, hk, ht, Kind.isLock]

theorem responds_no (hx : recordRequest r = some x)
    (hh : ¬(able h r ∧ x.kind.isLock = true ∧ homeOf x.lock = h.id))
    (ht : ¬(able h r ∧ x.kind = .grant ∧ x.target = h.id)) : responds h r = .no := by
  unfold responds
  rw [hx]
  dsimp only
  split
  · rfl
  · next ha =>
    have ha : able h r := by
      simp only [not_or, not_not] at ha
      exact ⟨Bool.eq_false_iff.mpr ha.1, ha.2.1, ha.2.2⟩
    rw [if_neg fun hc => hh ⟨ha, hc⟩, if_neg fun hc => ht ⟨ha, hc⟩]

theorem exec_observationPhase {s : State} {o : Lines} {g : Hw} (hg : startObservation o s.hw = g) :
    exec (.observationPhase o) s = .next { s with hw := g } := by
  rw [exec_eq, ← hg]
  rfl

/-- Settles O25: the home, the target, and every other station. -/
theorem observationStart : Obligations.ObservationStart := by
  unfold Obligations.ObservationStart
  refine ⟨fun s r x o hr hp hx => ?_, fun s r o hr hp => ?_⟩
  · intro able home target answered
    have hanswered : home → answered { s with hw := settleArrivals s.hw } := by
      rintro ⟨ha, hk, hh⟩
      refine ⟨_, _, exec_observationPhase (startObservation_home hr hp o (responds_home hx ha hk hh)), rfl, rfl, rfl, rfl,
        fun hf => ?_, fun hf => ?_, rfl, rfl, rfl, rfl, rfl, rfl, rfl⟩
      · have hf : (settleArrivals s.hw).htu.engaged = .free := hf
        simp [respondingRecord, hf, setRecord, Hw.setHtu, Htu.meetTransaction, Htu.engage, engagedBy]
      · have hf : (settleArrivals s.hw).htu.engaged ≠ .free := hf
        simp [respondingRecord, hf, setRecord, Hw.setHtu, Htu.meetTransaction]
    refine ⟨fun hh hidle => ?_, fun hh hex hl => ⟨_, settleArrivals_settled hex hl, hanswered hh⟩, ?_, fun hh ht => ?_⟩
    · have hself := hanswered hh
      rwa [settleArrivals_idle hidle] at hself
    · rintro ⟨ha, hk, ht⟩
      exact ⟨_, _, exec_observationPhase (startObservation_target hr hp o (responds_target hx ha hk ht)), rfl, rfl, rfl,
        rfl, rfl, rfl, rfl⟩
    · exact ⟨_, _, exec_observationPhase (startObservation_no hr hp o (responds_no hx hh ht)), rfl, rfl, rfl, rfl, rfl, rfl⟩
  · cases hn : responds s.hw r
    · exact ⟨_, _, exec_observationPhase (startObservation_home hr hp o hn), rfl, rfl, voidNoted_observing rfl rfl⟩
    · exact ⟨_, _, exec_observationPhase (startObservation_target hr hp o hn), rfl, rfl, voidNoted_observing rfl rfl⟩
    · exact ⟨_, _, exec_observationPhase (startObservation_no hr hp o hn), rfl, rfl, voidNoted_observing rfl rfl⟩

/-! ### The close of the observation phase -/

/-- The lines read at the close. -/
def closeLines (r : TxRecord) (o : Lines) (h : Hw) : Lines := wired o (observationLines h r)

/-- The record that has noted what is read at the close or in a stall (R34, R35). -/
def notingRecord (r : TxRecord) (o : Lines) (h : Hw) : TxRecord :=
  { r with stallSeen := o.lstall }.noteVoid (!larbHeld r (closeLines r o h)) (closeLines r o h).lvoid

/-- The record once the observation phase has closed (R36). -/
def closingRecord (r : TxRecord) (o : Lines) (h : Hw) : TxRecord :=
  { notingRecord r o h with
    presence := some ((closeLines r o h).ldat.setWidth 16), responded := some (closeLines r o h).lrsp
    phase := phaseAfterClose r (closeLines r o h).lrsp }

section

variable (hr : h.lbc.record = some r) (hp : r.phase = .observing) {o : Lines}
include hr hp

theorem closeObservation_stalled (hs : o.lstall = true ∨ r.lstall = true) :
    closeObservation o h = setRecord (notingRecord r o h) h := by
  have hl : (closeLines r o h).lstall = true := by simpa [closeLines, observationLines] using hs
  unfold closeObservation
  rw [hr]
  dsimp only
  rw [if_pos hp]
  exact if_pos hl

theorem closeObservation_closed (ho : o.lstall = false) (hs : r.lstall = false) :
    closeObservation o h = answerGrant r (setRecord (closingRecord r o h) (takeEngaged h)) := by
  have hl : ¬(closeLines r o h).lstall = true := by simp [closeLines, observationLines, ho, hs]
  unfold closeObservation
  rw [hr]
  dsimp only
  rw [if_pos hp]
  exact if_neg hl

end

theorem exec_observationClose {s : State} {o : Lines} {g : Hw} (hg : closeObservation o s.hw = g) :
    exec (.observationClose o) s = .next { s with hw := g } := by
  rw [exec_eq, ← hg]
  rfl

/-- The answer to a GRANT writes the record of the answer alone (R90). -/
theorem answerGrant_frame (r : TxRecord) (h : Hw) : (answerGrant r h).lbc = h.lbc ∧ (answerGrant r h).htu = h.htu
    ∧ (answerGrant r h).cqu = h.cqu ∧ (answerGrant r h).rqt.slots = h.rqt.slots
    ∧ (answerGrant r h).rqt.holds = h.rqt.holds ∧ sameOutside h (answerGrant r h) := by
  unfold answerGrant
  split
  · split <;> exact ⟨rfl, rfl, rfl, rfl, rfl, rfl, rfl, rfl⟩
  · exact ⟨rfl, rfl, rfl, rfl, rfl, rfl, rfl, rfl⟩

/-- The decision at the close writes the record of the decision and LSTALL alone (R51). -/
theorem takeEngaged_frame (h : Hw) : (takeEngaged h).cqu = h.cqu ∧ (takeEngaged h).rqt = h.rqt
    ∧ sameOutside h (takeEngaged h) := by
  obtain he | ⟨q, -, -, -, -, -, he⟩ := takeEngaged_cases h <;> rw [he] <;> exact ⟨rfl, rfl, rfl, rfl, rfl⟩

theorem voidNoted_closing {r' : TxRecord} {o : Lines} (he : r'.error = (notingRecord r o h).error)
    (hv : r'.voidSeen = (notingRecord r o h).voidSeen) : voidNoted h.id r r' o :=
  voidNoted_of (v := drivesVoid h.scu.station r) (larbHeld_eq_false (l := observationLines h r) rfl o) he hv
    fun hn => by simp [drivesVoid, hn]

/-- A decided transaction is not decided again. -/
theorem takeEngaged_decided {q : Request} (h : Hw) : takeEngaged (recordDecision q h) = recordDecision q h := by
  obtain he | ⟨_, -, -, hd, -⟩ := takeEngaged_cases (recordDecision q h)
  · exact he
  · cases hd

/-- The presence lines read at the close, this station's own among them (R36). -/
theorem closeLines_presence (r : TxRecord) (o : Lines) (h : Hw) :
    (closeLines r o h).ldat.setWidth 16 = o.ldat.setWidth 16 ||| presenceBit h := by
  simp [closeLines, observationLines]

/-- Settles O26: a stall, the close, and the transaction decided by it. -/
theorem observationClose : Obligations.ObservationClose := by
  unfold Obligations.ObservationClose
  refine ⟨fun s r x o hr hp hx => ⟨fun hs => ?_, fun ho hs => ?_⟩, fun s r x src o hc hr hs ho => ?_,
    fun s r o hr hp => ?_⟩
  · exact ⟨_, _, exec_observationClose (closeObservation_stalled hr hp hs), rfl, hp, rfl, rfl, rfl, rfl⟩
  · obtain ⟨hlbc, -, hcqu, hslots, hholds, hscu, hmbu, hport⟩ :=
      answerGrant_frame r (setRecord (closingRecord r o s.hw) (takeEngaged s.hw))
    obtain ⟨tcqu, trqt, tscu, tmbu, tport⟩ := takeEngaged_frame s.hw
    refine ⟨_, closingRecord r o s.hw, exec_observationClose (closeObservation_closed hr hp ho hs),
      congrArg Lbc.record hlbc, ?_, rfl, ?_,
      ⟨hscu.trans tscu, hmbu.trans tmbu, hport.trans tport⟩, hcqu.trans tcqu, ?_, ?_⟩
    · exact congrArg some (closeLines_presence r o s.hw)
    · show phaseAfterClose r (closeLines r o s.hw).lrsp = _
      simp [phaseAfterClose, hx, closeLines, observationLines]
    · exact hslots.trans (congrArg Rqt.slots trqt)
    · exact hholds.trans (congrArg Rqt.holds trqt)
  · refine ⟨_, exec_claim hc, ?_⟩
    have hp : r.phase = .observing := by
      obtain ⟨-, -, -, r', w, hr'', -, hph, -⟩ := hc
      obtain rfl := Option.some.inj (hr.symm.trans hr'')
      exact hph
    have hru : (recordDecision (requestOf src x) s.hw).lbc.record = some r := by
      simp [recordDecision, setStall, hr, Hw.setHtu, ← hs]
    rw [exec_observationClose (closeObservation_closed hr hp ho hs),
      exec_observationClose (s := { s with hw := recordDecision (requestOf src x) s.hw })
        (closeObservation_closed hru hp ho hs), takeEngaged_claim hc]
    simp only [takeEngaged_decided]
    rfl
  · by_cases hs : o.lstall = true ∨ r.lstall = true
    · exact ⟨_, _, exec_observationClose (closeObservation_stalled hr hp hs), rfl, voidNoted_closing rfl rfl⟩
    · obtain ⟨ho, hs⟩ := not_or.mp hs
      exact ⟨_, closingRecord r o s.hw, exec_observationClose (closeObservation_closed hr hp (Bool.eq_false_iff.mpr ho)
        (Bool.eq_false_iff.mpr hs)), congrArg Lbc.record (answerGrant_frame _ _).1, voidNoted_closing rfl rfl⟩

end Sys2Proof.Machine
end

section
/-! The outcomes of an ACQUIRE, with a cancel requested and without, and those of its CANCEL (R82 to R86): what the end
of the ACQUIRE with its hold and without it, a counted attempt and a backoff write, and what each leaves. -/

namespace Sys2Proof.Machine

variable {x : Transaction} (h : Hw) (n : SlotId) {o : Operation}

theorem sameBesidesSlot.trans {n : SlotId} {f g h : Hw} (h1 : sameBesidesSlot n f g) (h2 : sameBesidesSlot n g h) :
    sameBesidesSlot n f h := by
  obtain ⟨s1, t1, c1, p1⟩ := h1
  obtain ⟨s2, t2, c2, p2⟩ := h2
  exact ⟨fun m hm => (s2 m hm).trans (s1 m hm), t2.trans t1, c2.trans c1, p2.trans p1⟩

/-! ### The ends of an ACQUIRE -/

theorem endAcquire_eq (ho : (h.rqt.slot n).operation = some o) (c : ResultCode) (d : ResultDetail) :
    endAcquire n c d h = endOperation n c d o.mode h := by
  simp [endAcquire, ho]

theorem endAcquire_sameBesidesSlot (c : ResultCode) (d : ResultDetail) :
    sameBesidesSlot n h (endAcquire n c d h) := endOperation_sameBesidesSlot h n c d _

theorem endCancelled_sameBesidesSlot (c : CancelCause) : sameBesidesSlot n h (endCancelled n c h) :=
  endAcquire_sameBesidesSlot h n _ _

theorem acquireHeld_sameBesidesSlot (m : Mode) : sameBesidesSlot n h (acquireHeld n m h) := by
  unfold acquireHeld
  split
  · exact sameBesidesSlot_refl h n
  · exact walkerAct_sameBesidesSlot h n
      ((endAcquire_sameBesidesSlot (h.setHolds _) n _ _ : sameBesidesSlot n (h.setHolds _) _))

theorem countAttempt_sameBesidesSlot : sameBesidesSlot n h (countAttempt n h) := sameBesidesSlot_setSlot h n _

theorem countRefusal_sameBesidesSlot (d : RefusedDetail) : sameBesidesSlot n h (countRefusal n d h) := by
  cases d with
  | waitFull | holdFull => exact countAttempt_sameBesidesSlot h n
  | rebuilding => exact sameBesidesSlot_refl h n

/-- An ACQUIRE that ends without its hold writes the slot, the queue and the reservation (R81). -/
theorem endAcquire_writes (ho : (h.rqt.slot n).operation = some o) {c : ResultCode} (hc : c ≠ .acquired)
    (d : ResultDetail) :
    (endAcquire n c d h).rqt.slot n = (h.rqt.slot n).ended
      ∧ (endAcquire n c d h).cqu.queue = h.cqu.queue ++ [.result n o.op o.lock o.mode c d]
      ∧ (endAcquire n c d h).rqt.holds = withoutReservation n o.lock h.rqt.holds := by
  rw [endAcquire_eq h n ho]
  exact ⟨endOperation_slot h n ho _ _ _, endOperation_queue h n ho _ _ _, endOperation_holds h n ho hc _ _⟩

/-- An ACQUIRE that ends with its hold writes the slot, the queue and, but for marks, its entry (R74, R81). -/
theorem acquireHeld_writes (ho : (h.rqt.slot n).operation = some o) (m : Mode) :
    (acquireHeld n m h).rqt.slot n = (h.rqt.slot n).ended
      ∧ (acquireHeld n m h).cqu.queue = h.cqu.queue ++ [.result n o.op o.lock o.mode .acquired .none]
      ∧ unmarked (acquireHeld n m h).rqt.holds =
          unmarked (updateHold n o.lock (fun e => { e with state := .held, mode := m }) h.rqt.holds)
      ∧ (acquireHeld n m h).lbc.normal = h.lbc.normal := by
  have hs : ((h.setHolds (updateHold n o.lock (Hold.become .held m) h.rqt.holds)).rqt.slot n).operation = some o := ho
  simp only [acquireHeld, ho, endAcquire_eq _ n hs]
  refine ⟨?slot, ?queue, ?holds, by simp⟩
  case slot => rw [walkerAct_slot, endOperation_slot _ n hs]; rfl
  case queue => rw [walkerAct_cqu, endOperation_queue _ n hs]; rfl
  case holds => rw [walkerAct_unmarked]; simp [endOperation, hs, appendEntry]; rfl

/-! ### What an outcome of an ACQUIRE leaves (R82, R85) -/

theorem acquireAnswered_frame (r : Response) (hq : r = .queued → (h.rqt.slot n).cause = none) :
    sameBesidesSlot n h (acquireAnswered n r h) := by
  cases r with
  | granted =>
    cases hm : (h.rqt.slot n).operation.bind (·.mode) with
    | none => simpa [acquireAnswered, hm] using sameBesidesSlot_refl h n
    | some m => simpa [acquireAnswered, hm] using acquireHeld_sameBesidesSlot h n m
  | queued => simpa [acquireAnswered, hq rfl] using sameBesidesSlot_setSlot h n _
  | busy => exact endAcquire_sameBesidesSlot h n _ _
  | refused d =>
    have hcount := countRefusal_sameBesidesSlot h n d
    cases hc : (h.rqt.slot n).cause with
    | some c => simpa [acquireAnswered, hc] using hcount.trans (endCancelled_sameBesidesSlot _ n c)
    | none =>
      simp only [acquireAnswered, hc]
      split
      · exact hcount.trans (endAcquire_sameBesidesSlot _ n _ _)
      · exact hcount.trans (enterBackoff_sameBesidesSlot _ n)
  | done | stale | notWaiting | accept | decline | conflict => exact sameBesidesSlot_refl h n

theorem acquireVoid_frame (hk : x.kind = .acquire) : sameBesidesSlot x.slot h (slotVoid x h) := by
  have hcount := countAttempt_sameBesidesSlot h x.slot
  cases hc : (h.rqt.slot x.slot).cause with
  | some c => simpa [slotVoid, hk, hc] using hcount.trans (endCancelled_sameBesidesSlot _ x.slot c)
  | none =>
    simp only [slotVoid, hk, hc, reduceCtorEq, false_and, if_false, if_true]
    split
    · exact hcount.trans (endAcquire_sameBesidesSlot _ x.slot _ _)
    · exact hcount.trans (keepSlotEntry_sameBesidesSlot _ (by simp [hk]))

/-- An outcome of an ACQUIRE leaves the rest of the station, but where a cancel requested goes on (R85). -/
theorem acquireOutcome_frame (hk : x.kind = .acquire) (ha : awaitsOutcome x.kind (h.rqt.slot x.slot) = true)
    (y : BusOutcome) (hq : y = .answered .queued → (h.rqt.slot x.slot).cause = none) :
    sameBesidesSlot x.slot h (slotOutcome x y h) := by
  cases y with
  | void => rw [slotOutcome_void h ha]; exact acquireVoid_frame h hk
  | absent => rw [slotOutcome_absent h ha, hk]; exact endAcquire_sameBesidesSlot h _ _ _
  | answered r =>
    rw [slotOutcome_answered h ha, hk]
    exact acquireAnswered_frame h _ r fun hr => hq (by rw [hr])
  | complete => rw [slotOutcome_complete]; exact sameBesidesSlot_refl h _

/-! ### The writes of each outcome -/

/-- The writes of an ACQUIRE that ends without its hold, as the outcomes that end it so make them: with the attempts
counted to `k`. -/
def acquireFailed (n : SlotId) (o : Operation) (k : Nat) (c : ResultCode) (d : ResultDetail) (h g : Hw) : Prop :=
  (g.rqt.slot n = { (h.rqt.slot n).ended with attempts := k }
      ∧ g.cqu.queue = h.cqu.queue ++ [.result n o.op o.lock o.mode c d])
    ∧ g.rqt.holds = withoutReservation n o.lock h.rqt.holds ∧ g.lbc.normal = h.lbc.normal

theorem endAcquire_failed (ho : (h.rqt.slot n).operation = some o) {c : ResultCode} (hc : c ≠ .acquired)
    (d : ResultDetail) : acquireFailed n o (h.rqt.slot n).attempts c d h (endAcquire n c d h) := by
  obtain ⟨hslot, hqueue, hholds⟩ := endAcquire_writes h n ho hc d
  exact ⟨⟨hslot, hqueue⟩, hholds, by simp⟩

theorem countAttempt_slot :
    (countAttempt n h).rqt.slot n = { h.rqt.slot n with attempts := (h.rqt.slot n).attempts + 1 } :=
  slot_setSlot_same h n _

theorem countedEnd_failed (ho : (h.rqt.slot n).operation = some o) {c : ResultCode} (hc : c ≠ .acquired)
    (d : ResultDetail) :
    acquireFailed n o ((h.rqt.slot n).attempts + 1) c d h (endAcquire n c d (countAttempt n h)) := by
  have hs := countAttempt_slot h n
  obtain ⟨hslot, hqueue, hholds⟩ := endAcquire_writes (countAttempt n h) n (o := o) (by rw [hs]; exact ho) hc d
  rw [hs] at hslot
  exact ⟨⟨hslot, hqueue⟩, hholds, by rw [endAcquire_lbc]; rfl⟩

theorem enterBackoff_slot :
    (enterBackoff n h).rqt.slot n = { h.rqt.slot n with
      state := .backoff, backoffTimer := some (backoffDelay h.scu (h.rqt.slot n).attempts) } :=
  slot_setSlot_same h n _

theorem atLimit_counted :
    atLimit n (countAttempt n h) = true ↔ h.scu.attemptLimit.toNat ≤ (h.rqt.slot n).attempts + 1 := by
  simp [atLimit, countAttempt]

/-- A counted backoff writes the slot alone (R83, R84). -/
theorem countedBackoff_slot :
    (enterBackoff n (countAttempt n h)).rqt.slot n = { h.rqt.slot n with
      state := .backoff, attempts := (h.rqt.slot n).attempts + 1
      backoffTimer := some (backoffDelay h.scu ((h.rqt.slot n).attempts + 1)) } := by
  rw [enterBackoff_slot, countAttempt_slot]
  rfl

theorem acquireAnswered_granted {m : Mode} (ho : (h.rqt.slot n).operation = some o) (hm : o.mode = some m) :
    acquireAnswered n .granted h = acquireHeld n m h := by
  simp [acquireAnswered, ho, hm]

theorem acquireAnswered_queued (hc : (h.rqt.slot n).cause = none) :
    acquireAnswered n .queued h = h.setSlot n { h.rqt.slot n with state := .waiting } := by
  simp [acquireAnswered, hc]

theorem acquireAnswered_rebuilding (hc : (h.rqt.slot n).cause = none) :
    acquireAnswered n (.refused .rebuilding) h = enterBackoff n h := by
  simp [acquireAnswered, hc, countRefusal]

/-- A voided ACQUIRE with no cancel requested (R82, R83): the limit, or its return to the list. -/
theorem slotVoid_acquire (hk : x.kind = .acquire) (hc : (h.rqt.slot x.slot).cause = none) :
    slotVoid x h =
      if atLimit x.slot (countAttempt x.slot h) then endAcquire x.slot .voidLimit .none (countAttempt x.slot h)
      else keepSlotEntry x (countAttempt x.slot h) := by
  simp [slotVoid, hk, hc]

/-- A refusal for want of room, with no cancel requested (R82, R83): the limit, or a backoff. -/
theorem refusedFull_eq {d : RefusedDetail} (hd : d ≠ .rebuilding) (hc : (h.rqt.slot n).cause = none) :
    acquireAnswered n (.refused d) h =
      if atLimit n (countAttempt n h) then endAcquire n .refusedLimit (refusedResult d) (countAttempt n h)
      else enterBackoff n (countAttempt n h) := by
  cases d with
  | rebuilding => exact absurd rfl hd
  | waitFull | holdFull => simp [acquireAnswered, hc, countRefusal]

/-- Settles O32: each outcome through what the end of the ACQUIRE, a counted attempt and a backoff write. -/
theorem acquireOutcomes : Obligations.AcquireOutcomes := by
  unfold Obligations.AcquireOutcomes
  intro c s x y q m hb hk n r hstate habort hcause hq hop _ hm limit ended failed backoff refusedFor
  obtain ⟨record, mbu, responses, hexec⟩ := exec_bringsOutcome hb (by simp [hk, Kind.isSlot])
  generalize hg : delivered record mbu responses s.hw = g at hexec
  have hslot : g.rqt.slot x.slot = r := by rw [← hg]; rfl
  have ha : awaitsOutcome x.kind (g.rqt.slot x.slot) = true := by
    rw [hslot]
    exact awaitsOutcome_onBus (by simp [hk]) hstate habort
  have ho : (g.rqt.slot n).operation = some q := by rw [hslot]; exact hq
  have hno : (g.rqt.slot n).cause = none := by rw [hslot]; exact hcause
  obtain ⟨hothers, hhtu, hscu, hport⟩ := acquireOutcome_frame g hk ha y fun _ => hno
  have hfails {k code detail w} (hf : acquireFailed n q k code detail g w) : failed { s with hw := w } code detail k := by
    obtain ⟨⟨fslot, fqueue⟩, fholds, fnormal⟩ := hf
    rw [hslot] at fslot
    rw [hop, hm] at fqueue
    subst hg
    exact ⟨⟨fslot, fqueue⟩, fholds, fnormal⟩
  have hfull {d} (hd : d ≠ .rebuilding) :
      refusedFor { s with hw := acquireAnswered n (.refused d) g } (refusedResult d) := by
    rw [refusedFull_eq g n hd hno]
    constructor
    · intro hl
      have hat : atLimit n (countAttempt n g) = true := (atLimit_counted g n).2 (by rw [hslot]; subst hg; exact hl)
      rw [if_pos hat, ← hslot]
      exact hfails (countedEnd_failed g n ho (by simp) _)
    · intro hl
      have hat : ¬atLimit n (countAttempt n g) = true := fun hc =>
        absurd ((atLimit_counted g n).1 hc) (by rw [hslot]; subst hg; exact Nat.not_le.2 hl)
      rw [if_neg hat]
      refine ⟨(countedBackoff_slot g n).trans ?_, ?_, ?_⟩
      · rw [hslot]; subst hg; rfl
      · subst hg; rfl
      · subst hg; rfl
  refine ⟨_, hexec, by subst hg; exact hothers, by subst hg; exact hhtu, by subst hg; exact hscu,
    by subst hg; exact hport, ?granted, ?queued, ?busy, ?waitFull, ?holdFull, ?rebuilding, ?absent, ?void⟩
  case granted =>
    rintro rfl
    rw [slotOutcome_answered g ha, hk, slotAnswered, acquireAnswered_granted g _ ho hm]
    obtain ⟨wslot, wqueue, wholds, -⟩ := acquireHeld_writes g n ho m
    rw [hslot] at wslot
    rw [hop, hm] at wqueue
    subst hg
    exact ⟨⟨wslot, wqueue⟩, wholds⟩
  case queued =>
    rintro rfl
    rw [slotOutcome_answered g ha, hk, slotAnswered, acquireAnswered_queued g _ hno]
    refine ⟨(slot_setSlot_same g _ _).trans (by rw [hslot]), ?_, ?_⟩ <;> subst hg <;> rfl
  case busy =>
    rintro rfl
    rw [slotOutcome_answered g ha, hk, ← hslot]
    exact hfails (endAcquire_failed g n ho (by simp) _)
  case waitFull =>
    rintro rfl
    rw [slotOutcome_answered g ha, hk]
    exact hfull (by simp)
  case holdFull =>
    rintro rfl
    rw [slotOutcome_answered g ha, hk]
    exact hfull (by simp)
  case rebuilding =>
    rintro rfl
    rw [slotOutcome_answered g ha, hk, slotAnswered, acquireAnswered_rebuilding g _ hno]
    refine ⟨(enterBackoff_slot g _).trans ?_, ?_, ?_⟩
    · rw [hslot]; subst hg; rfl
    · subst hg; rfl
    · subst hg; rfl
  case absent =>
    rintro rfl
    rw [slotOutcome_absent g ha, hk, ← hslot]
    exact hfails (endAcquire_failed g n ho (by simp) _)
  case void =>
    rintro rfl
    rw [slotOutcome_void g ha]
    rw [slotVoid_acquire g hk hno]
    constructor
    · intro hl
      have hat : atLimit n (countAttempt n g) = true := (atLimit_counted g n).2 (by rw [hslot]; subst hg; exact hl)
      rw [if_pos hat, ← hslot]
      exact hfails (countedEnd_failed g n ho (by simp) _)
    · intro hl
      have hat : ¬atLimit n (countAttempt n g) = true := fun hc =>
        absurd ((atLimit_counted g n).1 hc) (by rw [hslot]; subst hg; exact Nat.not_le.2 hl)
      rw [if_neg hat, keepSlotEntry_eq _ (by simp [hk])]
      refine ⟨(slot_setSlot_same _ _ _).trans ?_, ?_, ?_, ?_⟩
      · rw [countAttempt_slot, hslot]
      all_goals subst hg; rfl

end Sys2Proof.Machine
end

section
/-! O33: the outcomes of an ACQUIRE with a cancel requested, and those of the CANCEL of a CANCELLING slot (R85, R86). -/

namespace Sys2Proof.Machine

variable {x : Transaction} (h : Hw) (n : SlotId) {o : Operation} {c : CancelCause}

theorem cancelResult_eq (c : CancelCause) : cancelResult c = c.result := by cases c <;> rfl

theorem acquireAnswered_cancels (hc : (h.rqt.slot n).cause = some c) :
    acquireAnswered n .queued h = issueCancel n c h := by
  simp [acquireAnswered, hc]

theorem acquireAnswered_refused (hc : (h.rqt.slot n).cause = some c) (d : RefusedDetail) :
    acquireAnswered n (.refused d) h = endCancelled n c (countRefusal n d h) := by
  simp [acquireAnswered, hc]

theorem slotVoid_cancels (hk : x.kind = .acquire) (hc : (h.rqt.slot x.slot).cause = some c) :
    slotVoid x h = endCancelled x.slot c (countAttempt x.slot h) := by
  simp [slotVoid, hk, hc]

theorem endCancelled_failed (ho : (h.rqt.slot n).operation = some o) :
    acquireFailed n o (h.rqt.slot n).attempts c.result .none h (endCancelled n c h) := by
  rw [← cancelResult_eq]
  exact endAcquire_failed h n ho (cancelResult_ne_acquired c) .none

theorem countedCancel_failed (ho : (h.rqt.slot n).operation = some o) :
    acquireFailed n o ((h.rqt.slot n).attempts + 1) c.result .none h (endCancelled n c (countAttempt n h)) := by
  rw [← cancelResult_eq]
  exact countedEnd_failed h n ho (cancelResult_ne_acquired c) .none

theorem acquireOutcome_others (hk : x.kind = .acquire) (ha : awaitsOutcome x.kind (h.rqt.slot x.slot) = true)
    (hc : (h.rqt.slot x.slot).cause = some c) (y : BusOutcome) :
    sameSlotsBut x.slot h.rqt (slotOutcome x y h).rqt := by
  by_cases hq : y = .answered .queued
  · subst hq
    rw [slotOutcome_answered h ha, hk, slotAnswered, acquireAnswered_cancels h _ hc]
    exact issueCancel_others h _ c
  · exact (acquireOutcome_frame h hk ha y fun hy => absurd hy hq).1

/-! ### The CANCEL's own outcomes (R86) -/

theorem endRecordedCancel_eq (hc : (h.rqt.slot n).cause = some c) :
    endRecordedCancel n h = endCancelled n c h := by
  simp [endRecordedCancel, hc]

/-- A voided CANCEL that is to be kept returns to the head of the list, and the slot stands (R40, R86). -/
theorem slotVoid_keepsCancel (hk : x.kind = .cancel) (he : (h.rqt.slot x.slot).ending = false) :
    slotVoid x h = returnNormal x h := by
  simp [slotVoid, keepSlotEntry, hk, he]

/-- What an outcome can do to a CANCEL: nothing, its end, or, after a void, its return to the list (R86). -/
theorem cancelOutcome_cases (hk : x.kind = .cancel) (ha : awaitsOutcome x.kind (h.rqt.slot x.slot) = true)
    (hc : (h.rqt.slot x.slot).cause = some c) (y : BusOutcome) :
    slotOutcome x y h = h ∨ slotOutcome x y h = endCancelled x.slot c h ∨ slotOutcome x y h = returnNormal x h := by
  have hend := endRecordedCancel_eq h x.slot hc
  cases y with
  | void =>
    rw [slotOutcome_void h ha]
    cases he : (h.rqt.slot x.slot).ending with
    | true => exact .inr (.inl ((slotVoid_ending h hk he).trans hend))
    | false => exact .inr (.inr (slotVoid_keepsCancel h hk he))
  | absent =>
    rw [slotOutcome_absent h ha, hk]
    exact .inr (.inl hend)
  | answered p =>
    rw [slotOutcome_answered h ha, hk]
    cases p with
    | done | notWaiting => exact .inr (.inl hend)
    | granted | queued | busy | refused _ | stale | accept | decline | conflict => exact .inl rfl
  | complete => exact .inl (slotOutcome_complete h)

theorem cancelOutcome_frame (hk : x.kind = .cancel) (ha : awaitsOutcome x.kind (h.rqt.slot x.slot) = true)
    (hc : (h.rqt.slot x.slot).cause = some c) (y : BusOutcome) :
    sameBesidesSlot x.slot h (slotOutcome x y h) := by
  obtain he | he | he := cancelOutcome_cases h hk ha hc y
  all_goals rw [he]
  · exact sameBesidesSlot_refl h _
  · exact endCancelled_sameBesidesSlot h _ c
  · exact sameBesidesSlot_refl h _

/-- The outcomes that end a CANCELLING slot (R86). -/
theorem cancelOutcome_ends (hk : x.kind = .cancel) (ha : awaitsOutcome x.kind (h.rqt.slot x.slot) = true)
    (hc : (h.rqt.slot x.slot).cause = some c) {y : BusOutcome}
    (hy : y = .answered .done ∨ y = .answered .notWaiting ∨ y = .absent
      ∨ y = .void ∧ (h.rqt.slot x.slot).ending = true) :
    slotOutcome x y h = endCancelled x.slot c h := by
  have hend := endRecordedCancel_eq h x.slot hc
  obtain rfl | rfl | rfl | ⟨rfl, he⟩ := hy
  · rw [slotOutcome_answered h ha, hk]; exact hend
  · rw [slotOutcome_answered h ha, hk]; exact hend
  · rw [slotOutcome_absent h ha, hk]; exact hend
  · rw [slotOutcome_void h ha]; exact (slotVoid_ending h hk he).trans hend

/-- Settles O33: each outcome through the end of the ACQUIRE with the cancel's result, and the CANCEL issued. -/
theorem cancelledAcquireOutcomes : Obligations.CancelledAcquireOutcomes := by
  unfold Obligations.CancelledAcquireOutcomes
  refine ⟨?acquire, ?cancel⟩
  case acquire =>
    intro i s x y q m cause hb hk n r hstate habort hcause hq hop hlock hm ended failed
    obtain ⟨record, mbu, responses, hexec⟩ := exec_bringsOutcome hb (by simp [hk, Kind.isSlot])
    generalize hg : delivered record mbu responses s.hw = g at hexec
    have hslot : g.rqt.slot x.slot = r := by rw [← hg]; rfl
    have ha : awaitsOutcome x.kind (g.rqt.slot x.slot) = true := by
      rw [hslot]
      exact awaitsOutcome_onBus (by simp [hk]) hstate habort
    have ho : (g.rqt.slot n).operation = some q := by rw [hslot]; exact hq
    have hc : (g.rqt.slot n).cause = some cause := by rw [hslot]; exact hcause
    have hfails {k code w} (hf : acquireFailed n q k code .none g w) : failed { s with hw := w } code k := by
      obtain ⟨⟨fslot, fqueue⟩, fholds, fnormal⟩ := hf
      rw [hslot] at fslot
      rw [hop, hm] at fqueue
      subst hg
      exact ⟨⟨fslot, fqueue⟩, fholds, fnormal⟩
    have hcounted : failed { s with hw := endCancelled n cause (countAttempt n g) } cause.result (r.attempts + 1) := by
      rw [← hslot]
      exact hfails (countedCancel_failed g n ho)
    refine ⟨_, hexec, by subst hg; exact acquireOutcome_others _ hk ha hc y, ?frame, ?granted, ?queued, ?busy,
      ?absent, ?rebuilding, ?counted⟩
    case frame =>
      intro hy
      have hhtu := (acquireOutcome_frame g hk ha y fun h => absurd h hy).2.1
      subst hg
      exact hhtu
    case granted =>
      rintro rfl
      rw [slotOutcome_answered g ha, hk, slotAnswered, acquireAnswered_granted g _ ho hm]
      obtain ⟨wslot, wqueue, wholds, -⟩ := acquireHeld_writes g n ho m
      rw [hslot] at wslot
      rw [hop, hm] at wqueue
      subst hg
      exact ⟨⟨wslot, wqueue⟩, wholds⟩
    case queued =>
      rintro rfl
      rw [slotOutcome_answered g ha, hk, slotAnswered, acquireAnswered_cancels g _ hc, ← hlock]
      by_cases hh : homeOf q.lock = g.id
      · rw [issueCancel_self g n ho hh]
        subst hg
        exact ⟨slot_setSlot_same _ _ _, rfl, fun hn => absurd hh hn, fun _ => ⟨rfl, rfl⟩⟩
      · rw [issueCancel_listed g n ho hh]
        subst hg
        exact ⟨slot_setSlot_same _ _ _, rfl, fun _ => ⟨rfl, rfl⟩, fun hn => absurd hn hh⟩
    case busy =>
      rintro rfl
      rw [slotOutcome_answered g ha, hk, ← hslot]
      exact hfails (endAcquire_failed g n ho (by simp) _)
    case absent =>
      rintro rfl
      rw [slotOutcome_absent g ha, hk, ← hslot]
      exact hfails (endAcquire_failed g n ho (by simp) _)
    case rebuilding =>
      rintro rfl
      rw [slotOutcome_answered g ha, hk, slotAnswered, acquireAnswered_refused g _ hc, ← hslot]
      exact hfails (endCancelled_failed g n ho)
    case counted =>
      rintro (rfl | rfl | rfl)
      · rw [slotOutcome_answered g ha, hk, slotAnswered, acquireAnswered_refused g _ hc]
        exact hcounted
      · rw [slotOutcome_answered g ha, hk, slotAnswered, acquireAnswered_refused g _ hc]
        exact hcounted
      · rw [slotOutcome_void g ha, slotVoid_cancels g hk hc]
        exact hcounted
  case cancel =>
    intro i s x y q cause hb hk n r hstate habort hcause hq
    obtain ⟨record, mbu, responses, hexec⟩ := exec_bringsOutcome hb (by simp [hk, Kind.isSlot])
    generalize hg : delivered record mbu responses s.hw = g at hexec
    have hslot : g.rqt.slot x.slot = r := by rw [← hg]; rfl
    have ha : awaitsOutcome x.kind (g.rqt.slot x.slot) = true := by simp [awaitsOutcome, hslot, hk, hstate, habort]
    have ho : (g.rqt.slot n).operation = some q := by rw [hslot]; exact hq
    have hc : (g.rqt.slot n).cause = some cause := by rw [hslot]; exact hcause
    obtain ⟨hothers, hhtu, -, -⟩ := cancelOutcome_frame g hk ha hc y
    refine ⟨_, hexec, by subst hg; exact hothers, by subst hg; exact hhtu, ?ends, ?kept⟩
    case ends =>
      intro hy
      rw [cancelOutcome_ends g hk ha hc (by rw [hslot]; exact hy)]
      obtain ⟨wslot, wqueue, wholds, -⟩ := endCancelled_writes g n ho cause
      rw [hslot] at wslot
      subst hg
      exact ⟨wslot, wqueue, wholds, by rw [endCancelled_lbc]; rfl⟩
    case kept =>
      rintro rfl he
      rw [slotOutcome_void g ha, slotVoid_keepsCancel g hk (by rw [hslot]; exact he)]
      subst hg
      exact ⟨rfl, rfl, rfl, rfl⟩

end Sys2Proof.Machine
end

section
/-! What a completion is, by this station's role (R38 to R41); and O27: the answer to a GRANT, held in flight at the
close of the observation phase and applied at its unvoided completion (R90, R91). -/

namespace Sys2Proof.Machine

variable {s : State} {h : Hw} {r : TxRecord} {x : Transaction} {o : Lines}

/-! ### A completion by its role -/

/-- A completion settles its outcome, closes the record, and makes the deliveries behind the membership unit's part. -/
theorem exec_completion (hc : atCompletion s r) (o : Lines) (ef : Bool) :
    exec (.completion o ef) s = .next { s with
      hw := deliver r (outcomeAt r o) ef (membershipCompleted r (outcomeAt r o) (closeRecord s.hw)) } := by
  obtain ⟨hrec, hphase⟩ := hc
  show acts (completeTransaction o ef) s = _
  simp only [acts_eq, completeTransaction, hrec, hphase, if_true, settle_completion]
  rfl

/-- The station as the deliveries of a peer's completion find it: the record closed and the winner sighted (R41,
R114). -/
def peerSeen (w : StationId) (h : Hw) : Hw :=
  { h with
    lbc := { h.lbc with record := none }
    mbu := h.mbu.setMember w ⟨.present, if h.scu.station.present = true then some 0 else none⟩ }

/-- The station as the deliveries of an own completion find it: the record closed and the won mark set (R41, R114). -/
def ownSeen (h : Hw) : Hw :=
  { h with lbc := { h.lbc with record := none }, mbu := { h.mbu with wonMark := true } }

theorem sighting_peer {w : StationId} (hw : w ≠ h.id) (b : Bool) : sighting w b (closeRecord h) = peerSeen w h :=
  if_pos hw

/-- The membership unit's part at a peer's completion, a LEAVE that completes apart (R114, R122). -/
theorem membershipCompleted_peer {y : BusOutcome} (hw : r.winner ≠ h.id)
    (hy : y ≠ .complete ∨ ∀ x, recordRequest r = some x → x.kind ≠ .leave) :
    membershipCompleted r y (closeRecord h) = peerSeen r.winner h := by
  unfold membershipCompleted
  split
  · next x hx =>
    rw [if_neg fun hl => hy.elim (fun hn => hn hl.2.1) fun hn => hn x hx hl.1]
    exact sighting_peer hw _
  · exact sighting_peer hw _

/-- What an own completion delivers (R39). -/
theorem exec_ownCompletion (hc : ownCompletion s r x o) (ef : Bool) :
    exec (.completion o ef) s = .next { s with
      hw := initiatorCompleted r.round x (r.presence.getD 0) (outcomeAt r o) (ownSeen s.hw) } := by
  obtain ⟨hat, hrole, hwin, hentry, -⟩ := hc
  rw [exec_completion hat, membershipCompleted_own (closeRecord s.hw) hrole hwin]
  simp only [deliver, hrole, hentry]
  rfl

/-- What the completion of a peer's transaction brings at its responder (R39). -/
theorem exec_responderCompletion (hc : atCompletion s r) (hrole : r.role = .responder) (hw : r.winner ≠ s.hw.id)
    (hx : recordRequest r = some x) (hy : outcomeAt r o ≠ .complete ∨ x.kind ≠ .leave) (ef : Bool) :
    exec (.completion o ef) s = .next { s with
      hw := responderCompleted x (outcomeAt r o) (peerSeen r.winner s.hw) } := by
  rw [exec_completion hc, membershipCompleted_peer hw (hy.imp_right fun hn t ht => by rwa [← Option.some.inj (hx.symm.trans ht)])]
  simp only [deliver, hrole, hx]

/-- What the unvoided completion of a peer's transaction brings at an observer (R39), a LEAVE apart (R122). -/
theorem exec_peerCompletion (hc : peerCompletion s r x) (hk : x.kind ≠ .leave) (hv : outcomeAt r o ≠ .void)
    (ef : Bool) :
    exec (.completion o ef) s = .next { s with
      hw := observerCompleted r.winner x (r.presence.getD 0) ef (peerSeen r.winner s.hw) } := by
  obtain ⟨hat, hrole, hw, hx⟩ := hc
  rw [exec_completion hat, membershipCompleted_peer hw (.inr fun t ht => by rwa [← Option.some.inj (hx.symm.trans ht)])]
  simp only [deliver, hrole, hx, if_neg hv]

/-! ### The outcome by the kind (R38) -/

theorem settle_complete (hx : recordRequest r = some x) (hk : x.kind.hasResponse = false) (hv : r.voidSeen = false) :
    settle r = .complete := by
  simp [settle, hx, hk, hv]

theorem outcomeAt_complete (hx : recordRequest r = some x) (hk : x.kind.hasResponse = false) (hv : ¬voided r o) :
    outcomeAt r o = .complete := by
  rw [outcomeAt_unvoided r o hv]
  exact settle_complete hx hk (by simpa using (not_or.mp hv).1)

theorem outcomeAt_answered {y : Response} (hx : recordRequest r = some x) (hk : x.kind.hasResponse = true)
    (hd : r.responded = some true) (hy : r.response = some y) (hv : ¬voided r o) :
    outcomeAt r o = .answered y := by
  have hn : r.voidSeen = false := by simpa using (not_or.mp hv).1
  rw [outcomeAt_unvoided r o hv]
  simp [settle, hx, hk, hn, hd, hy]

/-! ### The answer to a GRANT (R90) -/

theorem busRequest_record (hr : h.lbc.record = some r) (hx : recordRequest r = some x) :
    ∃ src, busRequest h = some (requestOf src x) := by
  obtain ⟨w, hw, hx⟩ := Option.bind_eq_some_iff.mp hx
  exact ⟨sourceField w.1, by simp [busRequest, hr, hw, hx, requestOf]⟩

/-- A transaction that is no lock transaction is not decided (R51). -/
theorem takeEngaged_grant (hr : h.lbc.record = some r) (hx : recordRequest r = some x) (hk : x.kind = .grant) :
    takeEngaged h = h := by
  obtain he | ⟨q, hq, -, -, hl, -⟩ := takeEngaged_cases h
  · exact he
  · obtain ⟨src, hs⟩ := busRequest_record hr hx
    obtain rfl := Option.some.inj (hq.symm.trans hs)
    simp [requestOf, hk, Kind.isLock] at hl

/-- The row of R90 that ends a cancel. -/
theorem answerOffer_ends (n : SlotId) (l : LockId) (m : Mode) (h : Hw) :
    (answerOffer n l m h).2 = true ↔ h.scu.flushing = false ∧ (h.rqt.slot n).state = .cancelling
      ∧ ∃ p, (h.rqt.slot n).operation = some p ∧ p.lock = l := by
  unfold answerOffer
  cases hf : h.scu.flushing <;> cases ho : (h.rqt.slot n).operation <;>
    simp [SlotRecord.hasOp, SlotRecord.onLock, ho]
  split
  · simp_all
  · split <;> simp_all

/-! ### The answer applied (R91) -/

/-- What the answer to a GRANT leaves as it was, but for the slot and its lists. -/
def answerFrame (n : SlotId) (h g : Hw) : Prop :=
  sameBesidesSlot n h g ∧ g.rqt.answer = h.rqt.answer ∧ g.rqt.waitLimits = h.rqt.waitLimits
    ∧ g.rqt.homes = h.rqt.homes ∧ g.rqt.responses = h.rqt.responses ∧ g.lbc.record = h.lbc.record

theorem answerFrame_refl (n : SlotId) (h : Hw) : answerFrame n h h :=
  ⟨sameBesidesSlot_refl h n, rfl, rfl, rfl, rfl, rfl⟩

theorem acquireHeld_answerFrame (n : SlotId) (m : Mode) (h : Hw) : answerFrame n h (acquireHeld n m h) := by
  refine ⟨acquireHeld_sameBesidesSlot h n m, ?_⟩
  unfold acquireHeld
  split
  · exact ⟨rfl, rfl, rfl, rfl, rfl⟩
  · simp

theorem removeCancel_answerFrame (n : SlotId) (h : Hw) : answerFrame n h (removeCancel n h) := by
  unfold removeCancel
  split
  · exact answerFrame_refl n h
  · split
    · exact ⟨endAcquire_sameBesidesSlot (removeNormal _ h) n _ _, by simp, by simp, by simp, by simp, by simp⟩
    · exact ⟨sameBesidesSlot_setSlot h n _, rfl, rfl, rfl, rfl, rfl⟩

theorem applyAnswer_frame (a : Answer) (h : Hw) : answerFrame a.slot h (applyAnswer a h) := by
  unfold applyAnswer
  split
  · exact acquireHeld_answerFrame _ _ h
  · split
    · exact removeCancel_answerFrame _ h
    · exact answerFrame_refl _ h

/-- The record of the answer emptied. -/
def emptyAnswer (h : Hw) : Hw := { h with rqt := { h.rqt with answer := none } }

theorem settleAnswer_flushing {a : Answer} (ha : h.rqt.answer = some a) (hf : h.scu.flushing = true) (v : Bool) :
    settleAnswer v h = emptyAnswer h := by
  simp [settleAnswer, ha, hf, emptyAnswer]

theorem settleAnswer_applies {a : Answer} (ha : h.rqt.answer = some a) (hf : h.scu.flushing = false) :
    settleAnswer false h = applyAnswer a (emptyAnswer h) := by
  simp [settleAnswer, ha, hf, emptyAnswer]

theorem applyAnswer_accepts {a : Answer} (ha : a.accept = true) (hs : (h.rqt.slot a.slot).state = .waiting) :
    applyAnswer a h = acquireHeld a.slot a.mode h := by
  simp [applyAnswer, ha, hs]

theorem applyAnswer_ends {a : Answer} (ha : a.accept = false) (he : a.cancelToEnd = true)
    (hs : (h.rqt.slot a.slot).state = .cancelling) {p : Operation}
    (ho : (h.rqt.slot a.slot).operation = some p) (hl : p.lock = a.lock) :
    applyAnswer a h = removeCancel a.slot h := by
  simp [applyAnswer, ha, he, hs, SlotRecord.onLock, ho, hl]

theorem applyAnswer_declines {a : Answer} (ha : a.accept = false) (he : a.cancelToEnd = false) :
    applyAnswer a h = h := by
  simp [applyAnswer, ha, he]

theorem homedAt_eq {n : SlotId} {p : Operation} (ho : (h.rqt.slot n).operation = some p) (k : StationId) :
    (h.rqt.slot n).homedAt k = decide (homeOf p.lock = k) := by
  simp [SlotRecord.homedAt, ho]

/-- Settles O27: the answer by the rows of R90, and its application slot state by slot state. -/
theorem grantAnswered : Obligations.GrantAnswered := by
  unfold Obligations.GrantAnswered
  refine ⟨?taken, ?applied⟩
  case taken =>
    intro s r x o hr hp hrole hx hk ho hs q waits ending
    have hans : answerGrant r (setRecord (closingRecord r o s.hw) (takeEngaged s.hw)) =
        takeGrant x.targetSlot x.lock x.mode (setRecord (closingRecord r o s.hw) s.hw) := by
      rw [takeEngaged_grant hr hx hk, answerGrant, hx]
      exact if_pos ⟨hrole, hk⟩
    have hexec := exec_observationClose (closeObservation_closed hr hp ho hs)
    rw [hans] at hexec
    exact ⟨_, _, hexec, rfl, rfl, rfl, rfl, rfl,
      answerOffer_accepts (setRecord (closingRecord r o s.hw) s.hw) x.targetSlot x.lock x.mode,
      answerOffer_ends x.targetSlot x.lock x.mode (setRecord (closingRecord r o s.hw) s.hw), rfl, rfl, rfl⟩
  case applied =>
    intro s r x o ef a y hc hv hrole hw hx hk hd hy ha q emptied ended
    have hout : outcomeAt r o = .answered y := outcomeAt_answered hx (by simp [hk, Kind.hasResponse]) hd hy hv
    have hexec := exec_responderCompletion (o := o) hc hrole hw hx (by simp [hk]) ef
    rw [hout, responderCompleted, if_pos hk] at hexec
    generalize hg : peerSeen r.winner s.hw = g at hexec
    have hga : g.rqt.answer = some a := by rw [← hg]; exact ha
    cases hf : s.hw.scu.flushing with
    | true =>
      rw [settleAnswer_flushing hga (by rw [← hg]; exact hf)] at hexec
      subst hg
      exact ⟨_, hexec, rfl, rfl, rfl, rfl, rfl, fun _ _ => rfl, rfl, rfl, rfl, fun _ => ⟨rfl, rfl, rfl⟩,
        by simp, by simp, fun _ _ => ⟨rfl, rfl, rfl⟩⟩
    | false =>
      rw [show decide ((BusOutcome.answered y) = .void) = false from rfl,
        settleAnswer_applies hga (by rw [← hg]; exact hf)] at hexec
      obtain ⟨⟨hslots, hhtu, hscu, hport⟩, hanswer, hlimits, hhomes, hresponses, hrecord⟩ :=
        applyAnswer_frame a (emptyAnswer g)
      refine ⟨_, hexec, hanswer, ?_, ?_, ?_, ?_, ?_, ?_, ?_, ?_, by simp, ?accepted, ?cancelled, ?declined⟩
      case accepted =>
        intro _ hacc hst p hop
        rw [applyAnswer_accepts hacc (by subst hg; exact hst)]
        obtain ⟨wslot, wqueue, wholds, wnormal⟩ :=
          acquireHeld_writes (emptyAnswer g) a.slot (o := p) (by subst hg; exact hop) a.mode
        subst hg
        exact ⟨⟨wslot, wqueue⟩, wnormal, wholds⟩
      case cancelled =>
        intro _ hacc hend hst p c hop hl hcause
        have hgo : ((emptyAnswer g).rqt.slot a.slot).operation = some p := by subst hg; exact hop
        rw [applyAnswer_ends hacc hend (by subst hg; exact hst) hgo hl]
        have hhome : ((emptyAnswer g).rqt.slot a.slot).homedAt (emptyAnswer g).id = decide (homeOf p.lock = s.hw.id) := by
          rw [homedAt_eq hgo]; subst hg; rfl
        refine ⟨fun hh hl => ?_, fun hh hl => ?_, fun hh => ?_⟩
        · rw [removeCancel_found _ _ (by simp [hhome, hh]) (by subst hg; exact hl),
            endRecordedCancel_eq (c := c) _ _ (by subst hg; exact hcause)]
          obtain ⟨wslot, wqueue, wholds, -⟩ :=
            endCancelled_writes (removeNormal (isSlotEntry a.slot) (emptyAnswer g)) a.slot hgo c
          subst hg
          exact ⟨⟨wslot, wqueue⟩, by rw [endCancelled_lbc]; rfl, wholds⟩
        · rw [removeCancel_onBus _ _ (by simp [hhome, hh]) (by subst hg; exact hl)]
          subst hg
          exact ⟨slot_setSlot_same _ _ _, rfl, rfl, rfl⟩
        · rw [removeCancel_self _ _ (by simp [hhome, hh])]
          subst hg
          exact ⟨rfl, rfl, rfl⟩
      case declined =>
        intro hacc hend
        rw [applyAnswer_declines hacc hend]
        subst hg
        exact ⟨rfl, rfl, rfl⟩
      all_goals subst hg
      · exact hrecord
      · exact hhtu
      · exact hscu
      · exact hport
      · exact hslots
      · exact hlimits
      · exact hhomes
      · exact hresponses

end Sys2Proof.Machine
end

section
/-! O30: the completions that discard what stands in flight, and those that are a sighting and nothing more (R24, R40,
R91, R114, R156). -/

namespace Sys2Proof.Machine

variable {s : State} {h : Hw} {r : TxRecord} {x : Transaction} {o : Lines}

/-- The completion of a peer's transaction at an observer whose kind has no effect there is a sighting alone. -/
theorem exec_peerCompletion_quiet {ef : Bool} (hc : peerCompletion s r x) (hk : x.kind ≠ .leave)
    (hq : observerCompleted r.winner x (r.presence.getD 0) ef (peerSeen r.winner s.hw) = peerSeen r.winner s.hw) :
    exec (.completion o ef) s = .next { s with hw := peerSeen r.winner s.hw } := by
  by_cases hv : outcomeAt r o = .void
  · obtain ⟨hat, hrole, hw, hx⟩ := hc
    rw [exec_completion hat, membershipCompleted_peer hw (.inl (by simp [hv]))]
    simp only [deliver, hrole, hx, if_pos hv]
  · rw [exec_peerCompletion hc hk hv, hq]

theorem evicted_absent (hs : h.scu.station.present = false) (w : StationId) (ef : Bool) : evicted w ef h = h := by
  simp [evicted, hs]

/-- The kinds that are a sighting alone at an observer (R114, R117, R123, R124). -/
theorem observerCompleted_quiet {ef : Bool} {w : StationId} {j : BitVec 16}
    (hk : x.kind = .beacon ∨ x.kind.isLock = true ∨ x.kind = .grant
      ∨ x.kind = .evict ∧ (x.target ≠ h.id ∨ h.scu.station.present = false)) :
    observerCompleted w x j ef h = h := by
  unfold observerCompleted
  cases hkind : x.kind with
  | beacon | acquire | release | downgrade | cancel | grant | reassert => rfl
  | evict =>
    obtain hc | hc | hc | ⟨-, ht⟩ := hk
    · simp [hkind] at hc
    · simp [hkind, Kind.isLock] at hc
    · simp [hkind] at hc
    · dsimp only
      split
      · next he => exact evicted_absent (ht.resolve_left fun hn => hn he) w ef
      · rfl
  | join | leave | purge => simp [hkind, Kind.isLock] at hk

/-- An outcome for an aborted slot is discarded (R156). -/
theorem slotOutcome_aborted (ha : (h.rqt.slot x.slot).aborted = true) (y : BusOutcome) : slotOutcome x y h = h := by
  simp [slotOutcome, awaitsOutcome, ha]

/-! ### The answer to a GRANT discarded (R91, R158) -/

/-- The answer applies to a slot that waits, at a station that is not flushing. -/
def answerPends (a : Answer) (h : Hw) : Prop :=
  h.scu.flushing = false ∧ a.accept = true ∧ (h.rqt.slot a.slot).state = .waiting

variable {a : Answer}

theorem settleAnswer_absent (ha : h.rqt.answer = none) (v : Bool) : settleAnswer v h = h := by
  simp [settleAnswer, ha]

theorem settleAnswer_voided (ha : h.rqt.answer = some a) (hf : h.scu.flushing = false) :
    settleAnswer true h = discardAnswer a (emptyAnswer h) := by
  simp [settleAnswer, ha, hf, emptyAnswer]

theorem discardAnswer_idle (hp : ¬(a.accept = true ∧ (h.rqt.slot a.slot).state = .waiting)) :
    discardAnswer a h = h := if_neg hp

section

variable (hp : a.accept = true ∧ (h.rqt.slot a.slot).state = .waiting)
include hp

theorem discardAnswer_kept (hc : (h.rqt.slot a.slot).cause = none) (hf : a.failHeld = false) :
    discardAnswer a h = h := by
  simp [discardAnswer, hp, hc, hf]

theorem discardAnswer_lost (hc : (h.rqt.slot a.slot).cause = none) (hf : a.failHeld = true) :
    discardAnswer a h = endAcquire a.slot .homeLost .none h := by
  simp [discardAnswer, hp, hc, hf]

theorem discardAnswer_cancels {c : CancelCause} (hc : (h.rqt.slot a.slot).cause = some c) (hf : a.failHeld = false) :
    discardAnswer a h = issueCancel a.slot c h := by
  simp [discardAnswer, hp, hc, hf]

theorem discardAnswer_cancelled {c : CancelCause} (hc : (h.rqt.slot a.slot).cause = some c) (hf : a.failHeld = true) :
    discardAnswer a h = endCancelled a.slot c h := by
  simp [discardAnswer, hp, hc, hf]

end

/-- What a discarded answer leaves: the other slots, the membership unit, the SCU, the pins, and the record of the
answer as it stands. -/
theorem discardAnswer_frame (a : Answer) (h : Hw) : sameSlotsBut a.slot h.rqt (discardAnswer a h).rqt
    ∧ (discardAnswer a h).rqt.answer = h.rqt.answer ∧ sameOutside h (discardAnswer a h) := by
  unfold discardAnswer
  split
  · split
    · exact ⟨(endCancelled_sameBesidesSlot h _ _).1, by simp, by simp [sameOutside]⟩
    · exact ⟨issueCancel_others h _ _, by simp, by simp [sameOutside]⟩
    · exact ⟨(endAcquire_sameBesidesSlot h _ _ _).1, by simp, by simp [sameOutside]⟩
    · exact ⟨fun _ _ => rfl, rfl, rfl, rfl, rfl⟩
  · exact ⟨fun _ _ => rfl, rfl, rfl, rfl, rfl⟩

/-- The discard of an answer that does not apply, or that has nothing held behind it, empties the record alone. -/
theorem settleAnswer_void_quiet (ha : h.rqt.answer = some a)
    (hq : ¬answerPends a h ∨ (h.rqt.slot a.slot).cause = none ∧ a.failHeld = false) :
    settleAnswer true h = emptyAnswer h := by
  cases hf : h.scu.flushing with
  | true => exact settleAnswer_flushing ha hf true
  | false =>
    rw [settleAnswer_voided ha hf]
    by_cases hp : a.accept = true ∧ (h.rqt.slot a.slot).state = .waiting
    · obtain hn | ⟨hc, hh⟩ := hq
      · exact absurd ⟨hf, hp⟩ hn
      · exact discardAnswer_kept (h := emptyAnswer h) hp hc hh
    · exact discardAnswer_idle (h := emptyAnswer h) hp

theorem settleAnswer_void_frame (ha : h.rqt.answer = some a) :
    (settleAnswer true h).rqt.answer = none ∧ sameSlotsBut a.slot h.rqt (settleAnswer true h).rqt
      ∧ sameOutside h (settleAnswer true h) := by
  cases hf : h.scu.flushing with
  | true =>
    rw [settleAnswer_flushing ha hf]
    exact ⟨rfl, fun _ _ => rfl, rfl, rfl, rfl⟩
  | false =>
    rw [settleAnswer_voided ha hf]
    obtain ⟨hslots, hanswer, hout⟩ := discardAnswer_frame a (emptyAnswer h)
    exact ⟨hanswer, hslots, hout⟩

theorem issueCancel_slot (h : Hw) (n : SlotId) {p : Operation} (ho : (h.rqt.slot n).operation = some p)
    (c : CancelCause) :
    (issueCancel n c h).rqt.slot n =
      { h.rqt.slot n with state := .cancelling, cause := some c, waitTimer := none } := by
  by_cases hh : homeOf p.lock = h.id
  · rw [issueCancel_self h n ho hh]; exact slot_setSlot_same _ _ _
  · rw [issueCancel_listed h n ho hh]; exact slot_setSlot_same _ _ _

/-! ### The home freed with no claim waiting (R24) -/

theorem endEngagement_idle (hc : h.htu.claims = []) (f : Hw → Hw) : endEngagement f h = f (h.setHtu h.htu.freed) := by
  simp [endEngagement, hc, takeWaiting]

/-- A voided completion at a responder or an observer (R24, R40). -/
theorem deliver_void (hc : h.htu.claims = []) (ef : Bool) :
    (r.role = .observer → deliver r .void ef h = h)
      ∧ (∀ x, r.role = .responder → recordRequest r = some x → x.kind ≠ .grant →
          deliver r .void ef h = h.setHtu h.htu.freed)
      ∧ (∀ x, r.role = .responder → recordRequest r = some x → x.kind = .grant →
          deliver r .void ef h = settleAnswer true h)
      ∧ (r.role = .responder → recordRequest r = none → deliver r .void ef h = h) := by
  refine ⟨fun ho => ?_, fun x ho hx hk => ?_, fun x ho hx hk => ?_, fun ho hx => ?_⟩
  · cases hx : recordRequest r <;> simp [deliver, ho, hx]
  · simp [deliver, ho, hx, responderCompleted, hk, endEngagement_idle hc]
  · simp [deliver, ho, hx, responderCompleted, hk]
  · simp [deliver, ho, hx]

theorem deliver_void_frame (hc : h.htu.claims = []) (hrole : r.role ≠ .initiator) (ef : Bool) :
    sameOutside h (deliver r .void ef h) := by
  obtain ⟨hobserver, hlock, hgrant, hnone⟩ := deliver_void hc ef
  cases ho : r.role with
  | initiator => exact absurd ho hrole
  | observer => rw [hobserver ho]; exact ⟨rfl, rfl, rfl⟩
  | responder =>
    cases hx : recordRequest r with
    | none => rw [hnone ho hx]; exact ⟨rfl, rfl, rfl⟩
    | some x =>
      by_cases hk : x.kind = .grant
      · rw [hgrant x ho hx hk]
        cases ha : h.rqt.answer with
        | none => rw [settleAnswer_absent ha]; exact ⟨rfl, rfl, rfl⟩
        | some a => exact (settleAnswer_void_frame ha).2.2
      · rw [hlock x ho hx hk]; exact ⟨rfl, rfl, rfl⟩

/-- What a voided completion of a peer's GRANT at its target does to the slot whose answer pends (R91). -/
theorem settleAnswer_void_pending (ha : h.rqt.answer = some a) (hp : answerPends a h) :
    ((h.rqt.slot a.slot).cause = none → a.failHeld = true →
        settleAnswer true h = endAcquire a.slot .homeLost .none (emptyAnswer h))
      ∧ ∀ c, (h.rqt.slot a.slot).cause = some c →
        (a.failHeld = true → settleAnswer true h = endCancelled a.slot c (emptyAnswer h))
        ∧ (a.failHeld = false → settleAnswer true h = issueCancel a.slot c (emptyAnswer h)) := by
  obtain ⟨hf, hp⟩ := hp
  rw [settleAnswer_voided ha hf]
  exact ⟨fun hc hh => discardAnswer_lost (h := emptyAnswer h) hp hc hh,
    fun c hc => ⟨fun hh => discardAnswer_cancelled (h := emptyAnswer h) hp hc hh,
      fun hh => discardAnswer_cancels (h := emptyAnswer h) hp hc hh⟩⟩

/-- Settles O30: by the role, and at the target of a GRANT by what was held behind the answer. -/
theorem voidedCompletionDiscards : Obligations.VoidedCompletionDiscards := by
  unfold Obligations.VoidedCompletionDiscards
  refine ⟨fun s r x o ef hv => ⟨fun hc hk => ?_, fun hc hk => ?_⟩, fun s r x o ef hc hk ha => ?_,
    fun s r o ef hat hv hclaims => ?_⟩
  · have hl : x.kind ≠ .leave := by
      rintro hl
      simp [hl, Kind.isLock] at hk
    refine exec_peerCompletion_quiet (ef := ef) hc hl (observerCompleted_quiet ?_)
    obtain hk | hk | hk | ⟨hk, ht⟩ := hk
    · exact .inl hk
    · exact .inr (.inl hk)
    · exact .inr (.inr (.inl hk))
    · refine .inr (.inr (.inr ⟨hk, ht.imp_right fun hs => ?_⟩))
      show s.hw.scu.station.present = false
      obtain hs | hs := hs <;> rw [hs] <;> rfl
  · have hx := hc.2.2.2.2 hv
    rw [exec_ownCompletion hc ef]
    obtain hk | hk := hk <;>
      simp [initiatorCompleted, hk, outcomeAt_complete hx (by simp [hk, Kind.hasResponse]) hv, ownSeen]
  · rw [exec_ownCompletion hc ef, initiatorCompleted_slot hk, slotOutcome_aborted (h := ownSeen s.hw) ha]
    rfl
  · intro closed
    refine ⟨fun hrole hw => ?_, fun x hc => ⟨fun hk => ?_, fun hk => ?_⟩⟩
    · have hexec : exec (.completion o ef) s = .next { s with hw := deliver r .void ef (peerSeen r.winner s.hw) } := by
        rw [exec_completion hat, outcomeAt_voided r o hv, membershipCompleted_peer hw (.inl (by simp))]
      have hidle : (peerSeen r.winner s.hw).htu.claims = [] := hclaims
      obtain ⟨hscu, hmbu, hport⟩ := deliver_void_frame hidle hrole ef
      obtain ⟨hobserver, hlock, hgrant, -⟩ := deliver_void (r := r) hidle ef
      refine ⟨_, hexec, ?_, fun p hp => ?_, (congrArg Mbu.beaconTimer hmbu :), (congrArg Mbu.wonMark hmbu :), hscu, hport,
        fun ho => ?_, fun ho x hx hk => ?_, fun ho x hx hk => ⟨fun ha => ?_, fun a ha => ?_⟩⟩
      · exact (congrArg (Mbu.member · r.winner) hmbu).trans (member_setMember_same _ _ _)
      · exact (congrArg (Mbu.member · p) hmbu).trans (member_setMember_ne _ (Ne.symm hp) _)
      · rw [hobserver ho]; exact ⟨rfl, rfl, rfl, rfl⟩
      · rw [hlock x ho hx hk]; exact ⟨rfl, rfl, rfl, rfl⟩
      · rw [hgrant x ho hx hk, settleAnswer_absent (h := peerSeen r.winner s.hw) ha]
        exact ⟨rfl, rfl, rfl, rfl⟩
      · rw [hgrant x ho hx hk]
        intro q pending ended
        have hpa : (peerSeen r.winner s.hw).rqt.answer = some a := ha
        obtain ⟨hanswer, hothers, -⟩ := settleAnswer_void_frame hpa
        refine ⟨hanswer, hothers, fun hq => ?_, fun p hpend hop => ⟨fun hno hh => ?_, fun c hsome => ⟨fun hh => ?_, fun hh => ?_⟩⟩⟩
        · rw [settleAnswer_void_quiet hpa hq]
          exact ⟨rfl, rfl, rfl, rfl⟩
        · show _ ∧ _ ∧ _ ∧ _ ∧ _
          rw [(settleAnswer_void_pending hpa hpend).1 hno hh]
          obtain ⟨wslot, wqueue, wholds⟩ := endAcquire_writes (emptyAnswer (peerSeen r.winner s.hw)) a.slot hop
            (c := .homeLost) (by simp) .none
          exact ⟨wslot, by rw [endAcquire_lbc]; rfl, by rw [endAcquire_htu]; rfl, wqueue, wholds⟩
        · show _ ∧ _ ∧ _ ∧ _ ∧ _
          rw [((settleAnswer_void_pending hpa hpend).2 c hsome).1 hh]
          obtain ⟨wslot, wqueue, wholds, -⟩ := endCancelled_writes (emptyAnswer (peerSeen r.winner s.hw)) a.slot hop c
          exact ⟨wslot, by rw [endCancelled_lbc]; rfl, by rw [endCancelled_htu]; rfl, wqueue, wholds⟩
        · rw [((settleAnswer_void_pending hpa hpend).2 c hsome).2 hh]
          refine ⟨?_, by rw [issueCancel_rqt_holds]; rfl, by rw [issueCancel_cqu]; rfl, fun hn => ?_⟩
          · exact (issueCancel_slot (emptyAnswer (peerSeen r.winner s.hw)) a.slot hop c).trans (by rw [← hsome]; rfl)
          · rw [issueCancel_listed (emptyAnswer (peerSeen r.winner s.hw)) _ hop hn]
            exact ⟨rfl, rfl⟩
    · rw [exec_ownCompletion hc ef, outcomeAt_voided r o hv]
      obtain hk | hk | hk | hk | hk := hk <;> cases hround : r.round <;> simp [initiatorCompleted, hk, keepEntry] <;> rfl
    · rw [exec_ownCompletion hc ef, outcomeAt_voided r o hv]
      have hidle : (returnPriority x (ownSeen s.hw)).htu.claims = [] := hclaims
      simp only [initiatorCompleted, hk, grantCompleted, if_true, endEngagement_idle hidle]
      rfl

end Sys2Proof.Machine
end

section
/-! O52 and O53: the completions of the own JOIN and the own LEAVE, and a completion the own ID won that this station
only observes (R119, R126 to R128, R135, R149). -/

namespace Sys2Proof.Machine

variable {s : State} {h : Hw} {r : TxRecord} {x : Transaction} {o : Lines}

/-! ### The own JOIN (R135) -/

section

variable (hs : h.scu.station = .joining) {j : BitVec 16}
include hs

theorem ownJoin_duplicate (hj : j.getLsbD h.id.val = true) : ownJoin j h = enterDuplicate h := by
  simp only [ownJoin, hs, ne_eq, not_true_eq_false, if_false, hj, if_true]

theorem ownJoin_alone (hj : j = 0) :
    ownJoin j h = raiseEvent .online (joinMembership 0
      { h with scu := { h.scu with station := .online }, htu := h.htu.entered 0 none }) := by
  subst hj
  simp [ownJoin, hs]

theorem ownJoin_rebuilds (hj : j.getLsbD h.id.val = false) (hne : j ≠ 0) :
    ownJoin j h = raiseEvent .joined (joinMembership j
      { h with
        scu := { h.scu with station := .rebuilding }
        htu := h.htu.entered j (some (Config.rebuildPeriods * h.period)) }) := by
  have hn : ¬j.getLsbD h.id.val = true := Bool.eq_false_iff.mp hj
  simp only [ownJoin, hs, ne_eq, not_true_eq_false, if_false, if_neg hn, if_neg hne]

end

theorem joinMembership_member (j : BitVec 16) (h : Hw) {p : StationId} (hp : p ≠ h.id) :
    (joinMembership j h).mbu.member p =
      if j.getLsbD p.val ∨ (h.mbu.member p).state = .present then ⟨.present, some 0⟩ else h.mbu.member p := by
  have hm : ∀ (m : Mbu) b w, Mbu.member { m with beaconTimer := b, wonMark := w } p = m.member p := fun _ _ _ => rfl
  rw [joinMembership, hm, member_mapMembers, if_neg hp]

/-- What the own JOIN makes of the membership of the others, alone or not (R119). -/
theorem joinMembership_others {j : BitVec 16} {p : StationId} (hp : p ≠ h.id) :
    (j.getLsbD p.val = true ∨ (h.mbu.member p).state = .present →
        (joinMembership j h).mbu.member p = ⟨.present, some 0⟩)
      ∧ (j.getLsbD p.val = false → (h.mbu.member p).state ≠ .present →
        (joinMembership j h).mbu.member p = h.mbu.member p) := by
  rw [joinMembership_member j h hp]
  exact ⟨fun hc => if_pos hc, fun hj hm => if_neg (not_or.mpr ⟨Bool.eq_false_iff.mp hj, hm⟩)⟩

/-! ### DUPLICATE (R126, R127) -/

theorem enterDuplicate_member (h : Hw) (p : StationId) :
    (enterDuplicate h).mbu.member p = { h.mbu.member p with timer := none } := by
  have hm : ∀ (m : Mbu) b, Mbu.member { m with beaconTimer := b } p = m.member p := fun _ _ => rfl
  rw [enterDuplicate, raiseEvent_mbu, removeNormal, hm, member_mapMembers]

theorem enterDuplicate_fields (h : Hw) :
    (enterDuplicate h).scu = { h.scu with station := .duplicate, listenTimer := none }
      ∧ (enterDuplicate h).lbc = { h.lbc with normal := h.lbc.normal.filter (·.kind ≠ .join) }
      ∧ (enterDuplicate h).mbu.beaconTimer = none ∧ (enterDuplicate h).mbu.wonMark = h.mbu.wonMark
      ∧ (enterDuplicate h).cqu.events = { h.cqu.events with duplicateId := true }
      ∧ (enterDuplicate h).cqu.queue =
          (if h.cqu.events = .empty then h.cqu.queue ++ [.station] else h.cqu.queue)
      ∧ (enterDuplicate h).htu = h.htu ∧ (enterDuplicate h).rqt = h.rqt ∧ (enterDuplicate h).port = h.port := by
  refine ⟨?_, ?_, ?_, ?_, ?_, ?_, ?_, ?_, ?_⟩ <;> simp [enterDuplicate, raiseEvent_queue, EventSet.raise, removeNormal]

/-! ### A completion the own ID won, observed (R127, R128) -/

section

variable (hw : r.winner = h.id) (hr : r.role = .observer)
include hw hr

/-- The membership unit's part of it is the sighting of the own ID. -/
theorem membershipCompleted_same (y : BusOutcome) :
    membershipCompleted r y h = sighting h.id false h := by
  have hf : decide (r.role = .initiator) = false := by simp [hr]
  unfold membershipCompleted
  split
  · rw [if_neg fun hc => hc.2.2 hw, hw, hf]
  · rw [hw, hf]

end

theorem sighting_self_joins (hs : h.scu.station = .listening ∨ h.scu.station = .joining) :
    sighting h.id false h = enterDuplicate h := by
  obtain hs | hs := hs <;> simp [sighting, hs]

theorem sighting_self_present (hs : h.scu.station.present = true) : sighting h.id false h = h := by
  cases hst : h.scu.station <;> simp [sighting, hst] <;> simp [hst, StationState.present] at hs

/-! ### What the tracker leaves outside -/

/-- From `h` to `g` the SCU, the membership unit, the pins, the record and the pointer are as they were. -/
def outsideKept (h g : Hw) : Prop :=
  sameOutside h g ∧ g.lbc.record = h.lbc.record ∧ g.lbc.pointer = h.lbc.pointer

theorem outsideKept.refl (h : Hw) : outsideKept h h := ⟨⟨rfl, rfl, rfl⟩, rfl, rfl⟩

theorem outsideKept.trans {f g h : Hw} (h1 : outsideKept f g) (h2 : outsideKept g h) : outsideKept f h := by
  obtain ⟨⟨s1, m1, p1⟩, r1, q1⟩ := h1
  obtain ⟨⟨s2, m2, p2⟩, r2, q2⟩ := h2
  exact ⟨⟨s2.trans s1, m2.trans m1, p2.trans p1⟩, r2.trans r1, q2.trans q1⟩

theorem outsideKept.of_fields {h g : Hw} (hs : g.scu = h.scu) (hm : g.mbu = h.mbu) (hp : g.port = h.port)
    (hr : g.lbc.record = h.lbc.record) (hq : g.lbc.pointer = h.lbc.pointer) : outsideKept h g :=
  ⟨⟨hs, hm, hp⟩, hr, hq⟩

theorem raiseEvent_outside (ev : Event) (h : Hw) : outsideKept h (raiseEvent ev h) :=
  .of_fields (by simp) (by simp) (by simp) (by simp) (by simp)

theorem walkerFinish_outside (p : StationId) (h : Hw) : outsideKept h (walkerFinish p h) :=
  .of_fields (by simp [walkerFinish]) (by simp [walkerFinish]) (by simp [walkerFinish]) (by simp [walkerFinish])
    (by simp [walkerFinish])

/-- The tracker and its walker leave all of it alone. -/
theorem tracker_outside (h : Hw) : TrackerKept (outsideKept h) where
  holds _ hp := hp.trans (.of_fields rfl rfl rfl rfl rfl)
  slot _ _ hp := hp.trans (.of_fields rfl rfl rfl rfl rfl)
  ended _ _ _ _ hp := hp.trans (.of_fields (by simp) (by simp) (by simp) (by simp) (by simp))
  placed _ hp := hp.trans (.of_fields rfl rfl rfl rfl rfl)
  returned _ hp := hp.trans (.of_fields rfl rfl rfl rfl rfl)
  removed _ hp := hp.trans (.of_fields rfl rfl rfl rfl rfl)
  claimed _ hp := hp.trans (.of_fields rfl rfl rfl rfl rfl)
  answer _ hp := hp.trans (.of_fields rfl rfl rfl rfl rfl)
  responses _ hp := hp.trans (.of_fields rfl rfl rfl rfl rfl)
  notice _ hp := hp.trans (.of_fields (by simp) (by simp) (by simp) (by simp) (by simp))
  walk hp := hp.trans (.of_fields (by simp) (by simp) (by simp) (by simp) (by simp))
  lowered hp := hp.trans (.of_fields (by simp) (by simp) (by simp) (by simp) (by simp))
  finished _ hp := hp.trans (walkerFinish_outside _ _)
  dropped s hp := by
    unfold walkerDrop
    split
    · exact hp
    · split
      · exact hp.trans (walkerFinish_outside s (removePriority _ _))
      · exact hp.trans (.of_fields rfl rfl rfl rfl rfl)
  added s _ hp := by
    unfold walkerAdd
    split
    · exact hp.trans (.of_fields (by simp) (by simp) (by simp) (by simp) (by simp))
    · dsimp only
      split
      · exact hp.trans (.of_fields (by simp [removePriority]) (by simp [removePriority]) (by simp [removePriority])
          (by simp [removePriority]) (by simp [removePriority]))
      · split
        · exact hp
        · exact hp.trans (.of_fields rfl rfl rfl rfl rfl)
  voided _ hp := by
    unfold reassertVoid
    split
    · dsimp only
      split <;> exact hp.trans (.of_fields rfl rfl rfl rfl rfl)
    · exact hp.trans (.of_fields rfl rfl rfl rfl rfl)

theorem evicted_outside (w : StationId) (ef : Bool) (h : Hw) : outsideKept h (evicted w ef h) := by
  have hr := fun g => (tracker_outside g).revokeByEvict w (outsideKept.refl g)
  unfold evicted
  split
  · cases ef
    · simp only [inOrder, Bool.false_eq_true, if_false]
      exact (hr h).trans (raiseEvent_outside _ _)
    · simp only [inOrder, if_true]
      exact (raiseEvent_outside _ h).trans (hr _)
  · exact outsideKept.refl h

/-! ### What an observer's deliveries come to where they do not concern it -/

theorem home_absent (hs : h.scu.station.present = false) : h.home = .inactive := by
  cases hst : h.scu.station <;> simp [Hw.home, StationState.home, hst] <;>
    simp [hst, StationState.present] at hs

theorem home_present (hs : h.scu.station.present = true) : h.home ≠ .inactive := by
  cases hst : h.scu.station <;> simp [Hw.home, StationState.home, hst] <;>
    simp [hst, StationState.present] at hs

/-- A station that is not present takes no effect of a peer's transaction but the sighting (R136, R150, R124, R4). -/
theorem observerCompleted_absent (hs : h.scu.station.present = false) (w : StationId) (x : Transaction)
    (j : BitVec 16) (ef : Bool) : observerCompleted w x j ef h = h := by
  unfold observerCompleted
  split
  · simp [peerJoined, hs]
  · simp [peerLeft, hs]
  · simp [deliverPurgeCause, home_absent hs]
  · rw [evicted_absent hs]
    exact ite_self h
  all_goals rfl

/-- The own ID's transaction, observed: only its PURGE and its EVICT naming this station have an effect (R128, R161). -/
theorem observerCompleted_self {j : BitVec 16} {ef : Bool} (hp : x.kind ≠ .purge)
    (he : ¬(x.kind = .evict ∧ x.target = h.id)) : observerCompleted h.id x j ef h = h := by
  unfold observerCompleted
  cases hk : x.kind with
  | join => simp [peerJoined]
  | leave => simp [peerLeft]
  | purge => exact absurd hk hp
  | evict => exact if_neg fun ht => he ⟨hk, ht⟩
  | acquire | release | downgrade | cancel | grant | reassert | beacon => rfl

theorem observerCompleted_outside (w : StationId) (x : Transaction) (j : BitVec 16) (ef : Bool)
    (hk : x.kind ≠ .join ∨ w = h.id) (hl : x.kind ≠ .leave ∨ w = h.id) :
    outsideKept h (observerCompleted w x j ef h) := by
  unfold observerCompleted
  split
  · next hj => simpa [peerJoined, hk.resolve_left fun hn => hn hj] using outsideKept.refl h
  · next hj => simpa [peerLeft, hl.resolve_left fun hn => hn hj] using outsideKept.refl h
  · unfold deliverPurgeCause
    split
    · exact outsideKept.refl h
    · exact .of_fields rfl rfl rfl rfl rfl
  · split
    · exact evicted_outside w ef h
    · exact outsideKept.refl h
  all_goals exact outsideKept.refl h

theorem deliver_observer (hrole : r.role = .observer) (y : BusOutcome) (ef : Bool) (h : Hw) :
    deliver r y ef h = h ∨ ∃ x, recordRequest r = some x ∧ y ≠ .void
      ∧ deliver r y ef h = observerCompleted r.winner x (r.presence.getD 0) ef h := by
  cases hx : recordRequest r with
  | none => exact .inl (by simp [deliver, hrole, hx])
  | some x =>
    by_cases hv : y = .void
    · exact .inl (by simp [deliver, hrole, hx, hv])
    · exact .inr ⟨x, rfl, hv, by simp only [deliver, hrole, hx, if_neg hv]⟩

/-- An unvoided transaction without a response phase delivers to its observer by its kind. -/
theorem deliver_observer_complete (hrole : r.role = .observer) (hx : recordRequest r = some x)
    (hk : x.kind.hasResponse = false) (hv : ¬voided r o) (ef : Bool) (h : Hw) :
    deliver r (outcomeAt r o) ef h = observerCompleted r.winner x (r.presence.getD 0) ef h := by
  rw [outcomeAt_complete hx hk hv]
  simp [deliver, hrole, hx]

theorem unvoided_of_outcome (hv : outcomeAt r o ≠ .void) : ¬voided r o := fun hc => hv (outcomeAt_voided r o hc)

/-- A completion the own ID won, as this station observes it (R127, R128). -/
theorem exec_sameCompletion (hc : atCompletion s r) (hw : r.winner = s.hw.id) (hrole : r.role = .observer) (ef : Bool) :
    exec (.completion o ef) s = .next { s with
      hw := deliver r (outcomeAt r o) ef (sighting s.hw.id false (closeRecord s.hw)) } := by
  rw [exec_completion hc, membershipCompleted_same (h := closeRecord s.hw) hw hrole]
  rfl

/-- Settles O52: the three states after the own JOIN, the duplicate met, and the own ID's transactions observed. -/
theorem ownJoinCompletes : Obligations.OwnJoinCompletes := by
  unfold Obligations.OwnJoinCompletes
  refine ⟨fun s r x o ef j hc hk hv hs hj => ?_, fun s r o ef hr hp hw hrole hs => ?_,
    fun s r o ef hat hw hrole hs => ?_⟩
  · have hx := hc.2.2.2.2 hv
    have hout := outcomeAt_complete hx (by simp [hk, Kind.hasResponse]) hv
    have hexec : exec (.completion o ef) s = .next { s with hw := ownJoin j (ownSeen s.hw) } := by
      rw [exec_ownCompletion hc ef, hout]
      simp [initiatorCompleted, hk, hj]
    have hst : (ownSeen s.hw).scu.station = .joining := hs
    cases hself : j.getLsbD s.hw.id.val with
    | true =>
      rw [ownJoin_duplicate hst hself] at hexec
      obtain ⟨hscu, hlbc, hbeacon, -, hevents, -, hhtu, hrqt, -⟩ := enterDuplicate_fields (ownSeen s.hw)
      exact ⟨_, hexec, by rw [hlbc]; rfl, hrqt, fun _ => ⟨by rw [hscu], hevents, hhtu, hbeacon, fun p =>
        by rw [enterDuplicate_member]⟩, by simp⟩
    | false =>
      by_cases hzero : j = 0
      · subst hzero
        rw [ownJoin_alone hst rfl] at hexec
        refine ⟨_, hexec, by simp [joinMembership, ownSeen], by simp [joinMembership, ownSeen], by simp, fun _ =>
          ⟨by simp, fun _ => ⟨by simp [joinMembership], by simp [joinMembership, Htu.entered, ownSeen],
            by simp [joinMembership, EventSet.raise, ownSeen]⟩, by rw [raiseEvent_mbu]; rfl, by rw [raiseEvent_mbu]; rfl,
            fun p hp => ?_⟩⟩
        rw [raiseEvent_mbu]
        exact joinMembership_others (h := { ownSeen s.hw with
          scu := { s.hw.scu with station := .online }, htu := s.hw.htu.entered 0 none }) hp
      · rw [ownJoin_rebuilds hst hself hzero] at hexec
        refine ⟨_, hexec, by simp [joinMembership, ownSeen], by simp [joinMembership, ownSeen], by simp, fun _ =>
          ⟨fun _ => ⟨by simp [joinMembership], by simp [joinMembership, Htu.entered, ownSeen]; rfl,
            by simp [joinMembership, EventSet.raise, ownSeen]⟩, fun hz => absurd hz hzero, by rw [raiseEvent_mbu]; rfl,
            by rw [raiseEvent_mbu]; rfl, fun p hp => ?_⟩⟩
        rw [raiseEvent_mbu]
        exact joinMembership_others (h := { ownSeen s.hw with
          scu := { s.hw.scu with station := .rebuilding }
          htu := s.hw.htu.entered j (some (Config.rebuildPeriods * s.hw.period)) }) hp
  · have hexec := exec_sameCompletion (o := o) ⟨hr, hp⟩ hw hrole ef
    have hsight := sighting_self_joins (h := closeRecord s.hw) hs
    obtain ⟨hscu, hlbc, hbeacon, hmark, hevents, hqueue, hhtu, hrqt, hport⟩ := enterDuplicate_fields (closeRecord s.hw)
    have hquiet : deliver r (outcomeAt r o) ef (enterDuplicate (closeRecord s.hw)) = enterDuplicate (closeRecord s.hw) := by
      obtain he | ⟨x, -, -, he⟩ := deliver_observer hrole (outcomeAt r o) ef (enterDuplicate (closeRecord s.hw))
      · exact he
      · rw [he]
        exact observerCompleted_absent (by rw [hscu]; rfl) _ _ _ _
    rw [show sighting s.hw.id false (closeRecord s.hw) = enterDuplicate (closeRecord s.hw) from hsight, hquiet] at hexec
    exact ⟨_, hexec, hscu, hlbc, enterDuplicate_member (closeRecord s.hw), hbeacon, hmark, hevents, hqueue, hhtu, hrqt,
      hport⟩
  · have hexec := exec_sameCompletion (o := o) hat hw hrole ef
    rw [show sighting s.hw.id false (closeRecord s.hw) = closeRecord s.hw from
      sighting_self_present (h := closeRecord s.hw) hs] at hexec
    intro carries named
    refine ⟨?_, fun hpurge hnamed => ?_, fun hpurge => ?_⟩
    · have hout : outsideKept (closeRecord s.hw) (deliver r (outcomeAt r o) ef (closeRecord s.hw)) := by
        obtain he | ⟨x, -, -, he⟩ := deliver_observer hrole (outcomeAt r o) ef (closeRecord s.hw)
        · rw [he]; exact outsideKept.refl _
        · rw [he]; exact observerCompleted_outside r.winner x _ ef (.inr hw) (.inr hw)
      obtain ⟨⟨hscu, hmbu, -⟩, hrec, -⟩ := hout
      exact ⟨_, hexec, hmbu, hscu, hrec⟩
    · rw [hexec]
      obtain he | ⟨x, hx, hv, he⟩ := deliver_observer hrole (outcomeAt r o) ef (closeRecord s.hw)
      · rw [he]; rfl
      · have hv := unvoided_of_outcome hv
        rw [he, hw, show s.hw.id = (closeRecord s.hw).id from rfl,
          observerCompleted_self (h := closeRecord s.hw) (fun hk => hpurge ⟨hv, x, hx, hk⟩) fun hk => hnamed ⟨hv, x, hx, hk.1, hk.2⟩]
        rfl
    · obtain ⟨hv, x, hx, hk⟩ := hpurge
      rw [hexec, deliver_observer_complete hrole hx (by simp [hk, Kind.hasResponse]) hv, observerCompleted, hk, hw]
      dsimp only
      rw [deliverPurgeCause, if_neg (home_present (h := closeRecord s.hw) hs)]
      rfl

/-- Settles O53: the station at its own LEAVE's completion. -/
theorem ownLeaveCompletes : Obligations.OwnLeaveCompletes := by
  unfold Obligations.OwnLeaveCompletes
  intro s r x o ef hc hk hv
  have hout := outcomeAt_complete (hc.2.2.2.2 hv) (by simp [hk, Kind.hasResponse]) hv
  have hexec : exec (.completion o ef) s = .next { s with hw := ownLeave (ownSeen s.hw) } := by
    rw [exec_ownCompletion hc ef, hout]
    simp [initiatorCompleted, hk]
  refine ⟨_, hexec, by simp [ownLeave, ownSeen], ?_, by simp [ownLeave], by simp [ownLeave], fun n => ?_, ?_, ?_, ?_, ?_, ?_,
    ?_, ?_, ?_, by simp [ownLeave, ownSeen]⟩
  · simp [ownLeave, Htu.inactive, Htu.reset]
  · simp [ownLeave, Rqt.slot, get_eq_getElem, leaveSlot, ownSeen]
  all_goals simp [ownLeave, Rqt.reset, ownSeen, EventSet.raise, raiseEvent_queue]

end Sys2Proof.Machine
end

section
/-! O54 and O39: the walker as the flush ends and as a REASSERT comes back (R143 to R145, R159, R162). -/

namespace Sys2Proof.Machine

variable {s : State} {h g t : Hw} {r : TxRecord} {x : Transaction} {o : Lines}

/-! ### What the walker's placing looks at -/

theorem walkerPlaced_congr (hr : t.rqt = g.rqt) (hs : t.scu = g.scu) (hp : t.lbc.priority = g.lbc.priority)
    {holds : List (Nat × Hold)} {listed : List Transaction} {k : Nat} {new : List Transaction}
    (hw : walkerPlaced holds listed k g new) : walkerPlaced holds listed k t new := by
  unfold walkerPlaced at hw ⊢
  rw [hr, hs, hp]
  exact hw

theorem walkGoesOn_congr (hr : t.rqt = g.rqt) {was : Option WalkerPhase} {new : List Transaction}
    (hw : walkGoesOn was g new) : walkGoesOn was t new := by
  unfold walkGoesOn walkBegun at hw ⊢
  rw [hr]
  exact hw

/-! ### The own PURGE (R162) -/

theorem endFlush_scu (h : Hw) : (endFlush h).scu = { h.scu with flushing := false } := by
  rw [endFlush_eq]
  split <;> simp [flushCleared]

theorem endFlush_rqt (h : Hw) : (endFlush h).rqt = (walkerAct (flushCleared h)).rqt := by
  rw [endFlush_eq]
  split <;> simp

theorem endFlush_priority (h : Hw) : (endFlush h).lbc.priority = (walkerAct (flushCleared h)).lbc.priority := by
  rw [endFlush_eq]
  split <;> simp

theorem endFlush_normal (h : Hw) : (endFlush h).lbc.normal =
    if h.scu.station = .leaving then h.lbc.normal ++ [{ kind := .leave }] else h.lbc.normal := by
  rw [endFlush_eq]
  split <;> simp [flushCleared]

theorem endFlush_events (h : Hw) : (endFlush h).cqu.events = { h.cqu.events with flushDone := true } := by
  rw [endFlush_eq]
  split <;> simp [flushCleared, EventSet.raise]

theorem endFlush_htu (h : Hw) : (endFlush h).htu = h.htu := by
  rw [endFlush_eq]
  split <;> simp [flushCleared]

/-- The walker goes on from the phase it had as the flush ends (R159). -/
theorem endFlush_walks (h : Hw) : ∃ new, walkGoesOn h.rqt.phase (endFlush h) new
    ∧ walkerPlaced h.rqt.holds h.lbc.priority h.rqt.outstanding (endFlush h) new := by
  obtain ⟨new, hgo, hplaced⟩ := walkerAct_placed (flushCleared h)
  exact ⟨new, walkGoesOn_congr (endFlush_rqt h) hgo,
    walkerPlaced_congr (endFlush_rqt h) (by rw [endFlush_scu, walkerAct_scu]; rfl) (endFlush_priority h) hplaced⟩

theorem endFlush_slot (h : Hw) (n : SlotId) : (endFlush h).rqt.slot n = endAbort (h.rqt.slot n) := by
  rw [endFlush_rqt, walkerAct_slot]
  simp [flushCleared]

theorem deliverPurgeCause_serving (hs : h.home ≠ .inactive) (p : StationId) (e : Bool) :
    deliverPurgeCause p e h = addClaim (.purgeCause p e) h := if_neg hs

/-- Settles O54: the flush ended field by field, and the cause delivered behind it. -/
theorem ownPurgeEndsFlush : Obligations.OwnPurgeEndsFlush := by
  unfold Obligations.OwnPurgeEndsFlush
  intro s r x o ef hc hk hv hs
  have hout := outcomeAt_complete (hc.2.2.2.2 hv) (by simp [hk, Kind.hasResponse]) hv
  have hhome : (endFlush (ownSeen s.hw)).home ≠ .inactive := by
    refine home_present ?_
    rw [endFlush_scu]
    exact hs
  have hexec : exec (.completion o ef) s =
      .next { s with hw := addClaim (.purgeCause s.hw.id false) (endFlush (ownSeen s.hw)) } := by
    rw [exec_ownCompletion hc ef, hout, ← deliverPurgeCause_serving hhome]
    simp [initiatorCompleted, hk]
    rfl
  obtain ⟨new, hgo, hplaced⟩ := endFlush_walks (ownSeen s.hw)
  refine ⟨_, hexec, endFlush_scu _, fun n ha => ?_, fun n ha => ?_, endFlush_events _, ?_, ⟨new, ?_, ?_⟩,
    endFlush_normal _, ?_⟩
  · exact (endFlush_slot (ownSeen s.hw) n).trans (if_pos ha)
  · exact (endFlush_slot (ownSeen s.hw) n).trans (if_neg (Bool.eq_false_iff.mp ha))
  · show (endFlush (ownSeen s.hw)).rqt.homes = _
    rw [endFlush_rqt, walkerAct_rqt_homes]
    rfl
  · exact walkGoesOn_congr rfl hgo
  · exact walkerPlaced_congr rfl rfl rfl hplaced
  · rw [addClaim_htu, endFlush_htu]
    rfl

/-! ### The decision on a REASSERT (R138) -/

section

variable {u : Htu} {q : Request}

theorem decideReassert_serving (hs : HomeState) (hn : hs ≠ .rebuilding) : decideReassert hs u q = (.stale, {}) := if_pos hn

theorem decideReassert_unawaited (ha : u.awaited.getLsbD q.station.val = false) (hs : HomeState) :
    decideReassert hs u q = (.stale, {}) := by
  unfold decideReassert
  rw [ha]
  exact ite_eq_left_iff.mpr fun _ => if_pos (by simp)

variable (ha : u.awaited.getLsbD q.station.val = true)
include ha

theorem decideReassert_closing (he : q.endFlag = true) :
    decideReassert .rebuilding u q = (.done, { unawait := some q.station }) := by
  unfold decideReassert
  rw [ha, he]
  rfl

/-- The rows of R138 for a REASSERT that carries a lock, from a station awaited. -/
theorem decideReassert_lock (he : q.endFlag = false) :
    decideReassert .rebuilding u q =
      if (findHolder q.index q.station q.slot u).isSome then (.done, {})
      else if compatible q.mode (holdersOf q.index u) = true ∧ holderFree u = true then
        (.done, { addHolder := some (heldEntry q) })
      else (.conflict, {}) := by
  unfold decideReassert
  rw [ha, he]
  rfl

end

theorem findHolder_isSome (i : LockIndex) (p : StationId) (n : SlotId) (u : Htu) :
    (findHolder i p n u).isSome = true ↔ ∃ e ∈ u.holders, e.index = i ∧ e.station = p ∧ e.slot = n := by
  simp [findHolder, List.find?_isSome]

/-! ### The walk as a REASSERT comes back (R144, R145) -/

/-- From `h` to `g` the walk and the completion queue apart, the station is as it was. -/
def walkOnly (h g : Hw) : Prop :=
  g.rqt.slots = h.rqt.slots ∧ g.rqt.answer = h.rqt.answer ∧ g.rqt.waitLimits = h.rqt.waitLimits
    ∧ g.rqt.responses = h.rqt.responses ∧ g.lbc.normal = h.lbc.normal ∧ g.htu = h.htu ∧ outsideKept h g

theorem walkOnly.refl (h : Hw) : walkOnly h h := ⟨rfl, rfl, rfl, rfl, rfl, rfl, outsideKept.refl h⟩

theorem walkOnly.trans {e f g : Hw} (h1 : walkOnly e f) (h2 : walkOnly f g) : walkOnly e g := by
  obtain ⟨a1, a2, a3, a4, a5, a6, a7⟩ := h1
  obtain ⟨b1, b2, b3, b4, b5, b6, b7⟩ := h2
  exact ⟨b1.trans a1, b2.trans a2, b3.trans a3, b4.trans a4, b5.trans a5, b6.trans a6, a7.trans b7⟩

theorem walkerAct_walkOnly (h : Hw) : walkOnly h (walkerAct h) :=
  ⟨by simp, by simp, by simp, by simp, by simp, by simp,
    .of_fields (by simp) (by simp) (by simp) (by simp) (by simp)⟩

theorem lowerOutstanding_walkOnly (k : Nat) (h : Hw) : walkOnly h (lowerOutstanding k h) := walkOnly.refl h

theorem walkerFinish_walkOnly (p : StationId) (h : Hw) : walkOnly h (walkerFinish p h) :=
  ⟨by simp [walkerFinish, Rqt.restartWalk], by simp [walkerFinish, Rqt.restartWalk],
    by simp [walkerFinish, Rqt.restartWalk], by simp [walkerFinish, Rqt.restartWalk], by simp [walkerFinish],
    by simp [walkerFinish], walkerFinish_outside p h⟩

theorem walkerDrop_walkOnly (p : StationId) (h : Hw) : walkOnly h (walkerDrop p h) := by
  unfold walkerDrop
  split
  · exact walkOnly.refl h
  · split
    · exact walkerFinish_walkOnly p (removePriority (isReassertTo p) h)
    · exact walkOnly.refl h

theorem requestNotice_walkOnly (n : SlotId) (h : Hw) : walkOnly h (requestNotice n h) :=
  ⟨by simp, by simp, by simp, by simp, by simp, by simp,
    .of_fields (by simp) (by simp) (by simp) (by simp) (by simp)⟩

theorem revokeByConflict_walkOnly (n : SlotId) (l : LockId) (h : Hw) : walkOnly h (revokeByConflict n l h) := by
  unfold revokeByConflict
  split
  · exact walkOnly.refl h
  · split
    · exact (walkOnly.refl h).trans (requestNotice_walkOnly n (h.setHolds _))
    · exact walkOnly.refl h

theorem reassertVoid_walkOnly (x : Transaction) (h : Hw) : walkOnly h (reassertVoid x h) := by
  unfold reassertVoid
  split
  · dsimp only
    split <;> exact walkOnly.refl h
  · exact walkOnly.refl h

theorem reassertOutcome_walkOnly (x : Transaction) (y : BusOutcome) (h : Hw) :
    walkOnly h (reassertOutcome x y h) := by
  have hlow : walkOnly h (walkerAct (lowerOutstanding 1 h)) := walkerAct_walkOnly (lowerOutstanding 1 h)
  cases y with
  | void => exact reassertVoid_walkOnly x h
  | absent => exact walkerDrop_walkOnly _ h
  | complete => exact walkOnly.refl h
  | answered p =>
    cases he : x.endFlag with
    | true =>
      simp only [reassertOutcome, he, if_true]
      cases p with
      | done | stale => exact walkerFinish_walkOnly _ h
      | granted | queued | busy | refused _ | notWaiting | accept | decline | conflict => exact hlow
    | false =>
      simp only [reassertOutcome, he, Bool.false_eq_true, if_false]
      cases p with
      | conflict =>
        exact (revokeByConflict_walkOnly x.slot x.lock (lowerOutstanding 1 h)).trans (walkerAct_walkOnly _)
      | granted | queued | busy | refused _ | done | stale | notWaiting | accept | decline => exact hlow

/-- The head home finished: the walk of the next begins (R145). -/
theorem walkerFinish_finished {p : StationId} {rest : List StationId} (hh : h.rqt.homes = p :: rest) :
    (walkerFinish p h).rqt.homes = rest ∧ (rest = [] → (walkerFinish p h).rqt.phase = none)
      ∧ ∃ new, (rest ≠ [] → walkBegun (walkerFinish p h) new)
        ∧ walkerPlaced (clearMarks p h.rqt.holds) h.lbc.priority 0 (walkerFinish p h) new := by
  have herase : h.rqt.homes.erase p = rest := by rw [hh, List.erase_cons_head]
  generalize hg : { h with rqt := ({ h.rqt with holds := clearMarks p h.rqt.holds }).restartWalk rest 0 } = g
  have hfin : walkerFinish p h = walkerAct g := by rw [walkerFinish, herase, hg]
  have hphase : g.rqt.phase = if rest.isEmpty then none else some .sending := by rw [← hg]; rfl
  have hplaced := walkerAct_placed g
  rw [hfin]
  refine ⟨by rw [walkerAct_rqt_homes, ← hg]; rfl, fun hnil => ?_, ?_⟩
  · subst hnil
    rw [walkerAct_absent _ hphase]
    exact hphase
  · obtain ⟨new, hgo, hplaced⟩ := hplaced
    refine ⟨new, fun hne => hgo.1 ?_, by rw [← hg] at hplaced ⊢; exact hplaced⟩
    rw [hphase, if_neg (by simpa using hne)]

/-- The walk goes on with a REASSERT fewer outstanding (R144). -/
theorem walkerAct_lowered {f : Hw} (hf : f.rqt.outstanding = h.rqt.outstanding - 1) (hp : f.rqt.phase = h.rqt.phase)
    (hl : f.lbc.priority = h.lbc.priority) :
    ∃ new, walkGoesOn h.rqt.phase (walkerAct f) new
      ∧ walkerPlaced f.rqt.holds h.lbc.priority (h.rqt.outstanding - 1) (walkerAct f) new := by
  rw [← hf, ← hp, ← hl]
  exact walkerAct_placed f

/-- A hold revoked by a CONFLICT has its NOTICE asked for (R94). -/
theorem revokeByConflict_held {n : SlotId} {l : LockId} {e : Hold} (hf : findHold n l h.rqt.holds = some e)
    (he : e.state = .held) :
    revokeByConflict n l h =
      requestNotice n (h.setHolds (updateHold n l (Hold.become .revoked e.mode) h.rqt.holds)) := by
  simp [revokeByConflict, hf, he]

theorem revokeByConflict_other {n : SlotId} {l : LockId}
    (hn : ∀ e, findHold n l h.rqt.holds = some e → e.state ≠ .held) : revokeByConflict n l h = h := by
  unfold revokeByConflict
  split
  · rfl
  · next e he => exact if_neg (hn e he)

theorem reassertVoid_keeps (hf : h.scu.flushing = false) : reassertVoid x h = returnPriority x h := by
  simp [reassertVoid, hf]

theorem reassertVoid_lock (hf : h.scu.flushing = true) (he : x.endFlag = false) :
    reassertVoid x h = lowerOutstanding 1 h := by
  simp [reassertVoid, hf, he]

theorem reassertVoid_closing (hf : h.scu.flushing = true) (he : x.endFlag = true) :
    reassertVoid x h =
      { h with rqt := { h.rqt with
        outstanding := h.rqt.outstanding - 1, phase := h.rqt.phase.map fun _ => .sending } } := by
  simp [reassertVoid, hf, he, lowerOutstanding]

theorem requestNotice_notice (n : SlotId) (h : Hw) : (requestNotice n h).cqu.notice n = true := by
  unfold requestNotice
  split
  · assumption
  · simp [Cqu.notice, Cqu.setNotice, get_eq_getElem]

theorem requestNotice_queue (n : SlotId) (h : Hw) :
    (requestNotice n h).cqu.queue =
      if h.cqu.notice n = true then h.cqu.queue else h.cqu.queue ++ [.notice n] := by
  unfold requestNotice
  split <;> simp

/-- Settles O39: the first case of R138 that applies; and each outcome by what the walker does with it. -/
theorem reassertDecision : Obligations.ReassertDecision := by
  unfold Obligations.ReassertDecision
  refine ⟨fun s x src hc hk => ?decision, fun s r x o ef p rest hc hk hh hl => ?outcome⟩
  case decision =>
    intro i recorded fits held
    have hd : decideRequest s.hw.home s.hw.htu (requestOf src x) = decideReassert s.hw.home s.hw.htu (requestOf src x) := by
      simp [decideRequest, requestOf, hk]
    have hrec : (findHolder (requestOf src x).index (requestOf src x).station (requestOf src x).slot s.hw.htu).isSome = true
        ↔ recorded := findHolder_isSome _ _ _ _
    have hfits : compatible (requestOf src x).mode (holdersOf (requestOf src x).index s.hw.htu) = true
        ∧ holderFree s.hw.htu = true ↔ fits := by
      rw [compatible_iff, holderFree_iff]
      exact and_congr_left fun _ => ⟨fun hn e he hi => by_contra fun hc => hn ⟨e, he, hi, hc⟩,
        fun ha ⟨e, he, hi, hc⟩ => hc (ha e he hi)⟩
    refine ⟨_, claimDecision s src x, exec_claim hc, recordDecision_decision, fun hs => ?_, fun hs => ⟨fun ha => ?_,
      fun ha => ⟨fun he => ?_, fun he => ?_⟩⟩⟩
    · rw [claimDecision, hd, decideReassert_serving _ (by simp [hs])]
      exact ⟨rfl, rfl⟩
    · rw [claimDecision, hd, decideReassert_unawaited ha]
      exact ⟨rfl, rfl⟩
    · rw [claimDecision, hd, hs, decideReassert_closing ha he]
      exact ⟨rfl, rfl⟩
    · rw [claimDecision, hd, hs, decideReassert_lock ha he]
      refine ⟨fun hr => ?_, fun hr hf => ?_, fun hr hf => ?_⟩
      · rw [if_pos (hrec.mpr hr)]
        exact ⟨rfl, rfl⟩
      · rw [if_neg (mt hrec.mp hr), if_pos (hfits.mpr hf)]
        exact ⟨rfl, rfl⟩
      · rw [if_neg (mt hrec.mp hr), if_neg (mt hfits.mp hf)]
        exact ⟨rfl, rfl⟩
  case outcome =>
    intro y answered q goesOn finished
    have hexec : exec (.completion o ef) s = .next { s with hw := reassertOutcome x y (ownSeen s.hw) } := by
      rw [exec_ownCompletion hc ef]
      simp only [initiatorCompleted, hk]
      rfl
    generalize hg : ownSeen s.hw = g at hexec
    obtain ⟨f1, f2, f3, f4, f5, f6, ⟨⟨f7, -, f8⟩, f9, f10⟩⟩ := reassertOutcome_walkOnly x y g
    have hhomes : g.rqt.homes = p :: rest := by rw [← hg]; exact hh
    have hgoes {f : Hw} {holds} (ho : f.rqt.outstanding = g.rqt.outstanding - 1) (hp : f.rqt.phase = g.rqt.phase)
        (hlist : f.lbc.priority = g.lbc.priority) (hhs : f.rqt.homes = g.rqt.homes) (hho : f.rqt.holds = holds) :
        goesOn { s with hw := walkerAct f } holds := by
      obtain ⟨new, hn⟩ := walkerAct_lowered ho hp hlist
      rw [hho] at hn
      subst hg
      exact ⟨(walkerAct_rqt_homes f).trans hhs, new, hn⟩
    have hplain : goesOn { s with hw := walkerAct (lowerOutstanding 1 g) } q.holds :=
      hgoes rfl rfl rfl rfl (by rw [← hg]; rfl)
    have hplainCqu : (walkerAct (lowerOutstanding 1 g)).cqu = s.hw.cqu := by rw [walkerAct_cqu, ← hg]; rfl
    refine ⟨_, hexec, ?_, ?_, ?_, ?_, ?_, ?_, ?_, ?_, ?_, ?_, fun he ha => ?lock, fun he ha => ?conflict,
      fun he ha => ?closing, fun ha => ?absent, fun hv => ?void⟩
    case lock =>
      have hr : reassertOutcome x y g = walkerAct (lowerOutstanding 1 g) := by
        obtain ha | ha := ha <;> rw [ha] <;> simp [reassertOutcome, he, lockReassertAnswered]
      rw [hr]
      exact ⟨hplain, hplainCqu⟩
    case conflict =>
      have hr : reassertOutcome x y g = walkerAct (revokeByConflict x.slot x.lock (lowerOutstanding 1 g)) := by
        rw [ha]; simp [reassertOutcome, he, lockReassertAnswered]
      rw [hr]
      refine ⟨fun e hf hst => ?_, fun hn => ?_⟩
      · rw [revokeByConflict_held (h := lowerOutstanding 1 g) (by rw [← hg]; exact hf) hst]
        refine ⟨hgoes (by simp) (by simp) (by simp) (by simp) (by simp; rw [← hg]; rfl), ?_, ?_⟩
        · show (walkerAct _).cqu.notice x.slot = true
          rw [walkerAct_cqu]
          exact requestNotice_notice _ _
        · show (walkerAct _).cqu.queue = _
          rw [walkerAct_cqu, requestNotice_queue, ← hg]
          rfl
      · rw [revokeByConflict_other (h := lowerOutstanding 1 g) (by rw [← hg]; exact hn)]
        exact ⟨hplain, hplainCqu⟩
    case closing =>
      have hr : reassertOutcome x y g = walkerFinish p g := by
        obtain ha | ha := ha <;> rw [ha] <;> simp [reassertOutcome, he, closingReassertAnswered, hl]
      rw [hr]
      have hfin := walkerFinish_finished hhomes
      have hcqu : (walkerFinish p g).cqu = s.hw.cqu := by rw [walkerFinish_cqu, ← hg]; rfl
      subst hg
      exact ⟨hfin, hcqu⟩
    case absent =>
      have hr : reassertOutcome x y g = walkerFinish p (removePriority (isReassertTo p) g) := by
        rw [ha]; simp [reassertOutcome, walkerDrop, hhomes, hl]
      rw [hr]
      have hfin := walkerFinish_finished (h := removePriority (isReassertTo p) g) hhomes
      have hcqu : (walkerFinish p (removePriority (isReassertTo p) g)).cqu = s.hw.cqu := by
        rw [walkerFinish_cqu, ← hg]; rfl
      subst hg
      exact ⟨hfin, hcqu⟩
    case void =>
      have hr : reassertOutcome x y g = reassertVoid x g := by rw [hv]; rfl
      rw [hr]
      subst hg
      cases hf : s.hw.scu.flushing with
      | false =>
        rw [reassertVoid_keeps (h := ownSeen s.hw) hf]
        exact ⟨rfl, fun _ => ⟨rfl, rfl⟩, by simp⟩
      | true =>
        cases hx : x.endFlag with
        | true =>
          rw [reassertVoid_closing (h := ownSeen s.hw) hf hx]
          exact ⟨rfl, by simp, fun _ => ⟨rfl, by simp, fun _ => rfl⟩⟩
        | false =>
          rw [reassertVoid_lock (h := ownSeen s.hw) hf hx]
          exact ⟨rfl, by simp, fun _ => ⟨rfl, fun _ => rfl, by simp⟩⟩
    all_goals subst hg
    · exact f1
    · exact f2
    · exact f3
    · exact f4
    · exact f5
    · exact f9
    · exact f10
    · exact f6
    · exact f7
    · exact f8

end Sys2Proof.Machine
end

section
/-! O40, O41 and O42: the evaluation of a lock, the outcome of an offer, and a self-homed request served (R9 to R16, R52,
R54, R64 to R70). -/

namespace Sys2Proof.Machine

variable {s : State} {h : Hw} {r : TxRecord} {x : Transaction} {o : Lines} {i : LockIndex}

/-! ### An evaluation leaves no offer due -/

theorem Evaluated.noOfferDue {h t : Hw} (hp : Evaluated i h t) : noOfferDue i t := by
  rw [noOfferDue_iff]
  intro hd
  obtain ⟨hn, -⟩ | ⟨hf, -⟩ := hp.outcome
  · exact absurd hd hn
  · exact holderFree_eq_false.mp hf

/-- Settles O42: the offers of one lock, in the order of its queue. -/
theorem evaluationLeavesNoOfferDue : Obligations.EvaluationLeavesNoOfferDue := by
  unfold Obligations.EvaluationLeavesNoOfferDue
  intro i h g queueOf key grant
  have hev := evaluate_evaluated i h
  obtain ⟨new, answers, placed, hholders, hnew, hqueue, hclaims, hplaced, hself, hother, hposted, hgrants, hbacklog⟩ :=
    hev.offering.made
  have hall : new.filter (·.index = i) = new := List.filter_eq_self.mpr fun e he => decide_eq_true (hnew e he).2
  refine ⟨hev.noOfferDue, fun j hj => ?_, evaluate_offersTaken h i, new, answers, placed, ?_, hholders,
    fun e he => (hnew e he).1, hclaims, hplaced, fun e he hs => ?_, hother, hposted, hgrants.trans ?_, hbacklog⟩
  · have hnone : new.filter (·.index = j) = [] :=
      List.filter_eq_nil_iff.mpr fun e he hi => hj ((of_decide_eq_true hi).symm.trans (hnew e he).2)
    have := hqueue j
    rw [hnone] at this
    exact this.symm
  · have := hqueue i
    rwa [hall] at this
  · rw [← (hnew e he).2]
    exact hself e he hs
  · refine List.map_congr_left fun e he => ?_
    have hi := (hnew e (List.mem_of_mem_filter he)).2
    simp only [grantOf, grant, hi]

/-! ### Evaluations that offer nothing -/

/-- A lock with no offer due, at a home where none is stalled, is evaluated to nothing. -/
theorem evaluate_quiet (hd : ¬offerDue i h.htu) (hs : h.htu.stalled = []) : evaluate i h = h := by
  have hun : unstall i h = h := by
    rw [unstall, hs, List.erase_nil, ← hs]
    rfl
  unfold evaluate
  cases h.htu.waiters.length with
  | zero => exact hun
  | succ k =>
    rw [evaluateFrom]
    split
    · exact hun
    · next w hw =>
      rw [if_neg fun hc => hd ⟨w, hw, hc⟩]
      exact hun

theorem foldl_evaluate_quiet (hd : ∀ i, ¬offerDue i h.htu) (hs : h.htu.stalled = []) (l : List LockIndex) :
    l.foldl (fun g i => evaluate i g) h = h := by
  induction l with
  | nil => rfl
  | cons i l ih => rw [List.foldl_cons, evaluate_quiet (hd i) hs, ih]

theorem stalledPass_quiet (hs : h.htu.stalled = []) : stalledPass h = h := by
  rw [stalledPass, hs]
  rfl

theorem evaluateChanged_quiet (hd : ∀ i, ¬offerDue i h.htu) (hs : h.htu.stalled = []) (touched : List LockIndex) :
    evaluateChanged touched h = h := by
  unfold evaluateChanged
  split
  · rw [foldl_evaluate_quiet hd hs, stalledPass_quiet hs]
  · rfl

theorem evaluateTouched_quiet (hd : ∀ i, ¬offerDue i h.htu) (hs : h.htu.stalled = []) (touched : List LockIndex) :
    evaluateTouched touched h = h := by
  unfold evaluateTouched
  split
  · rw [foldl_evaluate_quiet hd hs, stalledPass_quiet hs]
  · rfl

theorem no_offerDue_of_empty {t : Htu} (hw : t.waiters = []) (i : LockIndex) : ¬offerDue i t := by
  rintro ⟨w, hw', -⟩
  simp [headWaiter, hw] at hw'

/-! ### The outcome of an offer (R64 to R70) -/

/-- The home with an offer's outcome applied to its entry, as its evaluation finds it. -/
def offerSettled (i : LockIndex) (p : StationId) (n : SlotId) (accepted : Bool) (h : Hw) : Hw :=
  h.setHtu
    { h.htu with
      holders :=
        if accepted then
          h.htu.holders.map fun e => if isOfferTo i p n e then { e with state := .held, posted := none } else e
        else h.htu.holders.filter fun e => !isOfferTo i p n e }

theorem applyGrantOutcome_matched {p : StationId} {n : SlotId} (hm : ∃ e ∈ h.htu.holders, isOfferTo i p n e = true)
    (accepted : Bool) :
    applyGrantOutcome i p n accepted h = evaluateChanged [i] (offerSettled i p n accepted h) :=
  if_pos (List.any_eq_true.mpr hm)

theorem applyGrantOutcome_unmatched {p : StationId} {n : SlotId}
    (hm : ∀ e ∈ h.htu.holders, isOfferTo i p n e = false) (accepted : Bool) :
    applyGrantOutcome i p n accepted h = h := by
  refine if_neg fun hc => ?_
  obtain ⟨e, he, hi⟩ := List.any_eq_true.mp hc
  rw [hm e he] at hi
  cases hi

/-- The commands that take an offer's outcome take it at a free home. -/
theorem exec_offerOutcome {c : Instr} {p : StationId} {n : SlotId} {l : LockId} {m : Mode} {accepted : Bool}
    {claim : Claim} {rest : List Claim}
    (hc : c = .internalGrantOutcome ∧ claim = .internalOutcome n l m accepted ∧ p = s.hw.id
      ∨ c = .grantOutcome ∧ ∃ y, claim = .grantOutcome p n l m y ∧ (y = .answered .accept ↔ accepted = true))
    (hf : s.hw.htu.engaged = .free) (ha : s.hw.htu.arriving = claim :: rest) :
    exec c s = .next { s with
      hw := applyGrantOutcome (indexOf l) p n accepted (s.hw.setHtu { s.hw.htu with arriving := rest }) } := by
  obtain ⟨rfl, rfl, rfl⟩ | ⟨rfl, y, rfl, hy⟩ := hc
  · exact exec_claimRow s hf ha (by simp) (by simp)
  · rw [show accepted = decide (y = .answered .accept) by
      rw [Bool.eq_iff_iff, decide_eq_true_iff, hy]]
    exact exec_claimRow s hf ha (by simp) (by simp)

/-! ### The own GRANT gone (R15, R64) -/

/-- The home freed behind its GRANT, without a refill. -/
theorem grantCompleted_unvoided {y : BusOutcome} (hy : y ≠ .void) (hc : (departGrant h).htu.claims = []) :
    grantCompleted x y h = addClaim (.grantOutcome x.target x.targetSlot x.lock x.mode y)
      ((departGrant h).setHtu (departGrant h).htu.freed) := by
  simp only [grantCompleted, if_neg hy, hc, if_true, endEngagement_idle hc, id]

theorem departGrant_still (hn : h.htu.purge.isSome = true ∨ h.htu.backlog = []) :
    departGrant h = h.setHtu { h.htu with posted := h.htu.posted - 1 } := by
  unfold departGrant
  dsimp only
  split
  · rfl
  · next hp =>
    have hb : h.htu.backlog = [] := hn.resolve_left fun hs => hp hs
    simp [refillOne, Hw.setHtu, hb]

theorem departGrant_posts {w : Waiter} {rest : List Waiter} (hp : h.htu.purge = none)
    (hb : h.htu.backlog = w :: rest) (hn : h.htu.posted ≤ 8) :
    departGrant h = placePriority (grantOf h.id w)
      (h.setHtu
        { h.htu with
          backlog := rest, posted := h.htu.posted - 1 + 1
          holders := h.htu.holders.map fun e =>
            if isOfferTo w.index w.station w.slot e then { e with posted := some true } else e }) := by
  have hlt : h.htu.posted - 1 < 8 := by omega
  simp [departGrant, refillOne, Hw.setHtu, hp, hb, Config.postedLimit, hlt]

/-- Settles O41: the entry matched or not; and the own GRANT gone, with its refill or without. -/
theorem offerOutcomes : Obligations.OfferOutcomes := by
  unfold Obligations.OfferOutcomes
  refine ⟨?taken, ?departed⟩
  case taken =>
    intro s c p n l m accepted claim rest hc hf ha offered settled
    have hexec := exec_offerOutcome hc hf ha
    refine ⟨fun hn => ?_, fun hm hw hs => ?_, fun hm => ?_⟩
    · rw [hexec, applyGrantOutcome_unmatched (h := s.hw.setHtu { s.hw.htu with arriving := rest }) hn]
      rfl
    · rw [hexec, applyGrantOutcome_matched (h := s.hw.setHtu { s.hw.htu with arriving := rest }) hm,
        evaluateChanged_quiet
          (h := offerSettled (indexOf l) p n accepted (s.hw.setHtu { s.hw.htu with arriving := rest }))
          (no_offerDue_of_empty hw) hs]
      rfl
    · rw [applyGrantOutcome_matched (h := s.hw.setHtu { s.hw.htu with arriving := rest }) hm] at hexec
      exact ⟨_, hexec, evaluateChanged_after [indexOf l] (fun _ => by simp) _⟩
  case departed =>
    intro s r x o ef hc hk hv hset hclaims departed becomes
    have hexec : exec (.completion o ef) s = .next { s with hw := grantCompleted x (settle r) (ownSeen s.hw) } := by
      rw [exec_ownCompletion hc ef, outcomeAt_unvoided r o hv]
      simp only [initiatorCompleted, hk]
    refine ⟨fun hn => ?_, fun w rest hp hb hn => ?_⟩
    · have hd := departGrant_still (h := ownSeen s.hw) hn
      rw [grantCompleted_unvoided hset (by rw [hd]; exact hclaims), hd] at hexec
      exact hexec
    · have hd := departGrant_posts (h := ownSeen s.hw) hp hb hn
      rw [grantCompleted_unvoided hset (by rw [hd]; exact hclaims), hd] at hexec
      exact hexec

end Sys2Proof.Machine
end

section
/-! O40: a decision applied, in general and where nothing is to be offered, and the self-homed request it answers (R52,
R54, R156). -/

namespace Sys2Proof.Machine

variable {s : State} {h : Hw}

/-! ### A decision applied (R54) -/

theorem mem_touched (c : Changes) (i : LockIndex) : i ∈ c.touched ↔ changesLock c i := by
  simp [Changes.touched, changesLock]

/-- The home with a decision's changes made, as its evaluations find it. -/
def decided (c : Changes) (h : Hw) : Hw := withdrawOffers c.dropHolders (h.setHtu (h.htu.change c))

theorem applyChanges_plain {c : Changes} (hn : c.unawait = none) :
    applyChanges c id h = evaluateChanged c.touched (decided c h) := by
  simp [applyChanges, unawaitOption, hn, decided]

/-- A self-homed request is applied as a decision with its response handed before. -/
theorem applyChanges_handed {c : Changes} (hn : c.unawait = none) (p : SelfResponse) :
    applyChanges c (handResponse p) h = evaluateChanged c.touched (decided c (handResponse p h)) := by
  simp only [applyChanges, unawaitOption, hn, decided]
  rfl

theorem withdrawOffers_none {es : List Holder} (hn : es.filter (·.state = .offered) = []) : withdrawOffers es h = h := by
  rw [withdrawOffers, hn]
  rfl

theorem withdrawOffers_one {es : List Holder} {e : Holder} (hn : es.filter (·.state = .offered) = [e]) :
    withdrawOffers es h = withdrawOffer e h := by
  rw [withdrawOffers, hn]
  rfl

theorem withdrawOffer_internal {e : Holder} (hp : e.posted = none) : withdrawOffer e h = h := by
  simp [withdrawOffer, hp]

theorem withdrawOffer_backlog {e : Holder} (hp : e.posted = some false) :
    withdrawOffer e h = h.setHtu
      { h.htu with
        backlog := h.htu.backlog.filter fun w => ¬(w.index = e.index ∧ w.station = e.station ∧ w.slot = e.slot) } := by
  simp [withdrawOffer, hp]

/-- A posted offer withdrawn where at most one place is free for its successor: what stands is refilled (R15, R16). -/
theorem withdrawOffer_posted {e : Holder} (hp : e.posted = some true)
    (hg : ∃ y ∈ h.lbc.priority, isGrantTo e.station e.slot (lockAt h.id e.index) y = true)
    (hn : h.htu.purge = none) (hb : h.htu.posted = 8 ∨ h.htu.backlog = []) :
    withdrawOffer e h = refilled { h with
      htu := { h.htu with posted := h.htu.posted - 1 }
      lbc := { h.lbc with
        priority := h.lbc.priority.filter fun y => !isGrantTo e.station e.slot (lockAt h.id e.index) y } } := by
  generalize hf : ({ h with
      htu := { h.htu with posted := h.htu.posted - 1 }
      lbc := { h.lbc with
        priority := h.lbc.priority.filter fun y => !isGrantTo e.station e.slot (lockAt h.id e.index) y } } : Hw) = f
  have hone : withdrawOffer e h = refillOne f := by
    have hany : h.lbc.priority.any (isGrantTo e.station e.slot (lockAt h.id e.index)) = true := List.any_eq_true.mpr hg
    rw [withdrawOffer, hp]
    dsimp only
    rw [if_pos hany, departGrant]
    dsimp only
    rw [if_neg (by simp [removePriority, hn]), ← hf]
    rfl
  rw [hone]
  obtain hb | hb := hb
  · refine refill_eq_refilled 1 f ?_
    rw [← hf]
    show 8 - (h.htu.posted - 1) ≤ 1
    omega
  · have hbf : f.htu.backlog = [] := by rw [← hf]; exact hb
    rw [refilled_of_empty f hbf]
    simp [refillOne, hbf]

/-- The home makes a decision in the order of R54. -/
theorem decided_made (c : Changes) (b : Hw) : decisionMade c b (evaluateChanged c.touched (decided c b)) := by
  have hafter := evaluateChanged_after (locks := changesLock c) c.touched (mem_touched c) (decided c b)
  unfold decisionMade
  dsimp only
  refine ⟨fun hno => ?_, fun e hone => ⟨fun hp => ?_, fun hp => ?_, fun hp hg hn hb => ?_⟩⟩
  · rw [decided, withdrawOffers_none hno] at hafter ⊢
    exact hafter
  · rw [decided, withdrawOffers_one hone, withdrawOffer_internal hp] at hafter ⊢
    exact hafter
  · rw [decided, withdrawOffers_one hone, withdrawOffer_backlog hp] at hafter ⊢
    exact hafter
  · have hkey : ∀ y, isGrantTo e.station e.slot (lockAt b.id e.index) y = true ↔
        y.kind = .grant ∧ y.target = e.station ∧ y.targetSlot = e.slot ∧ y.lock = lockAt b.id e.index := by
      simp [isGrantTo, and_assoc]
    have hfil : b.lbc.priority.filter (fun y => decide ¬(y.kind = .grant ∧ y.target = e.station ∧ y.targetSlot = e.slot
        ∧ y.lock = lockAt b.id e.index)) =
        b.lbc.priority.filter fun y => !isGrantTo e.station e.slot (lockAt b.id e.index) y := by
      refine List.filter_congr fun y _ => ?_
      rw [Bool.eq_iff_iff, decide_eq_true_iff, ← hkey, Bool.not_eq_true', Bool.not_eq_true]
    obtain ⟨y, hy, hgy⟩ := hg
    rw [decided, withdrawOffers_one hone, withdrawOffer_posted (h := b.setHtu (b.htu.change c)) hp
      ⟨y, hy, (hkey y).mpr hgy⟩ hn hb] at hafter ⊢
    rw [hfil]
    exact hafter

/-! ### A decision after which nothing is offered -/

/-- A decision without offers to withdraw and without offers to make writes its changes alone. -/
theorem decided_quiet {c : Changes} (hs : h.htu.stalled = []) (hno : c.dropHolders.filter (·.state = .offered) = [])
    (hd : ∀ i, ¬offerDue i (h.htu.change c)) :
    evaluateChanged c.touched (decided c h) = h.setHtu (h.htu.change c) := by
  rw [decided, withdrawOffers_none hno]
  exact evaluateChanged_quiet (h := h.setHtu (h.htu.change c)) hd hs _

/-- A decision that queues a waiter finds it in conflict with the holders that stay (R58). -/
theorem decideRequest_queues {hs : HomeState} {t : Htu} {q : Request} {w : Waiter} (hw : t.waiters = [])
    (ha : (decideRequest hs t q).2.addWaiter = some w) :
    w = waiterEntry q ∧ (t.change (decideRequest hs t q).2).waiters = [w]
      ∧ compatible w.mode (holdersOf w.index (t.change (decideRequest hs t q).2)) = false := by
  unfold decideRequest at ha ⊢
  cases hk : q.kind with
  | acquire =>
    simp only [hk] at ha ⊢
    have hempty : (t.without (superseded q t)).waiters = [] := by simp [Htu.without, hw]
    unfold decideAcquire at ha ⊢
    dsimp only at ha ⊢
    split at ha
    · simp [superseded] at ha
    · next hre =>
      split at ha
      · simp [superseded] at ha
      · next hgr =>
        split at ha
        · simp [superseded] at ha
        · next htry =>
          split at ha
          · simp [superseded] at ha
          · next hng =>
            split at ha
            · next hfree =>
              obtain rfl : waiterEntry q = w := by simpa using ha
              have hnc : compatible q.mode (holdersOf q.index (t.without (superseded q t))) = false := by
                rw [← Bool.not_eq_true]
                exact fun hc => hng ⟨by simp [headWaiter, hempty], hc⟩
              rw [if_neg hre, if_neg hgr, if_neg htry, if_neg hng, if_pos hfree]
              refine ⟨rfl, ?_, ?_⟩
              · simp [Htu.change, Htu.without, hw]
              · have hh : (t.change { superseded q t with addWaiter := some (waiterEntry q) }).holders =
                    (t.without (superseded q t)).holders := List.append_nil _
                rw [holdersOf, hh]
                exact hnc
            · simp [superseded] at ha
  | release => simp only [hk, decideRelease] at ha; split at ha <;> simp at ha
  | downgrade =>
    simp only [hk, decideDowngrade] at ha
    split at ha
    · simp at ha
    · split at ha
      · split at ha <;> simp at ha
      · simp at ha
  | cancel =>
    simp only [hk, decideCancel] at ha
    split at ha
    · simp at ha
    · split at ha <;> simp at ha
  | reassert =>
    simp only [hk, decideReassert] at ha
    split at ha
    · simp at ha
    · split at ha
      · simp at ha
      · split at ha
        · simp at ha
        · split at ha
          · simp at ha
          · split at ha <;> simp at ha
  | grant | beacon | join | leave | purge | evict => simp [hk] at ha

/-- The holder entries a decision drops are the requester's (R56, R60, R62). -/
theorem decideRequest_drops {hs : HomeState} {t : Htu} {q : Request} {e : Holder}
    (he : e ∈ (decideRequest hs t q).2.dropHolders) : e ∈ t.holders ∧ e.station = q.station ∧ e.slot = q.slot := by
  unfold decideRequest at he
  cases hk : q.kind with
  | acquire =>
    simp only [hk, (decideAcquire_drops hs t q).2.1, superseded, List.mem_filter, decide_eq_true_eq] at he
    exact ⟨he.1, he.2.1, he.2.2.1⟩
  | release =>
    simp only [hk, decideRelease] at he
    split at he
    · next f hf =>
      obtain rfl := List.mem_singleton.mp he
      unfold heldOf at hf
      have hp := List.find?_some hf
      simp only [decide_eq_true_eq] at hp
      exact ⟨List.mem_of_find?_eq_some hf, hp.2.1, hp.2.2.1⟩
    · simp at he
  | downgrade =>
    simp only [hk, decideDowngrade] at he
    split at he
    · simp at he
    · split at he
      · split at he <;> simp at he
      · simp at he
  | cancel =>
    simp only [hk, decideCancel] at he
    split at he
    · simp at he
    · split at he
      · next f hf =>
        obtain rfl := List.mem_singleton.mp he
        have hp := List.find?_some hf
        simp only [isOfferTo, Bool.and_eq_true, decide_eq_true_eq] at hp
        exact ⟨List.mem_of_find?_eq_some hf, hp.1.1.2, hp.1.2⟩
      · simp at he
  | reassert =>
    simp only [hk, decideReassert] at he
    split at he
    · simp at he
    · split at he
      · simp at he
      · split at he
        · simp at he
        · split at he
          · simp at he
          · split at he <;> simp at he
  | grant | beacon | join | leave | purge | evict => simp [hk] at he

/-- A request of a slot's own kinds. -/
def slotKind (q : Request) : Prop :=
  q.kind = .acquire ∨ q.kind = .release ∨ q.kind = .downgrade ∨ q.kind = .cancel

theorem decideRequest_unawait {q : Request} (hk : slotKind q) (hs : HomeState) (t : Htu) :
    (decideRequest hs t q).2.unawait = none := by
  unfold decideRequest
  obtain hk | hk | hk | hk := hk <;> simp only [hk]
  · exact (decideAcquire_drops hs t q).2.2.2
  · unfold decideRelease; split <;> rfl
  · unfold decideDowngrade
    split
    · rfl
    · split
      · split <;> rfl
      · rfl
  · unfold decideCancel
    split
    · rfl
    · split <;> rfl

/-- A decision does not look at the claims that have reached the home. -/
theorem decideRequest_arriving (hs : HomeState) (t : Htu) (q : Request) (rest : List Claim) :
    decideRequest hs { t with arriving := rest } q = decideRequest hs t q := by
  unfold decideRequest
  cases q.kind <;> rfl

/-! ### Self-homed requests (R52) -/

/-- A self-homed request that has reached a free home, taken. -/
theorem exec_selfRequest {q : Request} {rest : List Claim} (hf : s.hw.htu.engaged = .free)
    (ha : s.hw.htu.arriving = .selfRequest q :: rest) (hk : slotKind q) :
    exec .selfHomedRequest s = .next { s with
      hw := evaluateChanged (decideRequest s.hw.home s.hw.htu q).2.touched
        (decided (decideRequest s.hw.home s.hw.htu q).2
          (handResponse { slot := q.slot, kind := q.kind, response := (decideRequest s.hw.home s.hw.htu q).1 }
            (s.hw.setHtu { s.hw.htu with arriving := rest }))) } := by
  have hd : decideRequest (s.hw.setHtu { s.hw.htu with arriving := rest }).home { s.hw.htu with arriving := rest } q =
      decideRequest s.hw.home s.hw.htu q := decideRequest_arriving _ _ _ _
  rw [← applyChanges_handed (decideRequest_unawait hk _ _), ← hd]
  exact exec_claimRow (c := .selfRequest q) s hf ha (by simp) (by simp)

/-- A response taken for a slot whose owed mark is set is discarded (R156). -/
theorem exec_owedResponse {n : SlotId} {p : SelfResponse} (hfind : s.hw.rqt.responses.find? (·.slot = n) = some p)
    (hp : p.slot = n) (ho : (s.hw.rqt.slot n).owed = true) :
    exec (.selfHomedResponse n) s = .next { s with
      hw := { s.hw with
        rqt := ({ s.hw.rqt with responses := s.hw.rqt.responses.erase p }).setSlot n
          { s.hw.rqt.slot n with owed := false } } } := by
  subst hp
  show acts (takeSlotResponse p.slot) s = _
  simp only [acts_eq, takeSlotResponse, hfind, takeResponse, ho, if_true]
  rfl

/-- Settles O40: the request decided as the lock transaction it replaces, and its response. -/
theorem selfHomedRequestServed : Obligations.SelfHomedRequestServed := by
  unfold Obligations.SelfHomedRequestServed
  refine ⟨fun s q rest hf ha hw hs hheld hk => ?_, fun s q rest hf ha hk => ?_, fun s n older younger p hl hno hp ho => ?_⟩
  · intro d
    have hexec := exec_selfRequest hf ha hk
    rw [decided_quiet (h := handResponse _ (s.hw.setHtu { s.hw.htu with arriving := rest })) hs] at hexec
    · exact ⟨_, hexec, rfl, rfl, rfl, rfl, rfl, rfl, rfl⟩
    · refine List.filter_eq_nil_iff.mpr fun e he hst => ?_
      obtain ⟨hmem, hstation, hslot⟩ := decideRequest_drops he
      rw [hheld e hmem hstation hslot] at hst
      simp at hst
    · rintro i ⟨w, hhead, hc⟩
      have hadd : (decideRequest s.hw.home s.hw.htu q).2.addWaiter = some w := by
        have hmem := List.mem_of_find?_eq_some hhead
        simpa [Htu.change, Htu.without, hw, Hw.setHtu] using hmem
      obtain ⟨-, -, hconflict⟩ := decideRequest_queues hw hadd
      obtain rfl : w.index = i := by simpa using List.find?_some hhead
      exact absurd (hconflict.symm.trans hc) (by simp)
  · intro d
    exact ⟨_, exec_selfRequest hf ha hk, decided_made _ _⟩
  · have hfind : s.hw.rqt.responses.find? (·.slot = n) = some p := by
      rw [hl, List.find?_append, List.find?_eq_none.mpr fun v hv => by simpa using hno v hv]
      simp [hp]
    have herase : s.hw.rqt.responses.erase p = older ++ younger := by
      rw [hl, List.erase_append_right _ fun hv => hno p hv hp, List.erase_cons_head]
    rw [exec_owedResponse hfind hp ho, herase]

end Sys2Proof.Machine
end

section
/-! O43 and O50: a purge started and its walk made, by a purge cause and by the rebuild expiry (R15, R16, R18, R19,
R139). -/

namespace Sys2Proof.Machine

variable {s : State} {h : Hw}

/-! ### Offers withdrawn while a purge is in progress (R15, R16) -/

/-- The entry's GRANT, where it is posted. -/
def grantKey (own : StationId) (e : Holder) (x : Transaction) : Bool :=
  e.posted = some true && isGrantTo e.station e.slot (lockAt own e.index) x

/-- The entry's place in the backlog, where it has one. -/
def placeKey (e : Holder) (w : Waiter) : Bool :=
  e.posted = some false && (w.index = e.index && w.station = e.station && w.slot = e.slot)

/-- The home without an entry's offer, and nothing posted in its place. -/
def withoutOffer (e : Holder) (h : Hw) : Hw :=
  { h with
    htu := { h.htu with
      posted := h.htu.posted - if h.lbc.priority.any (grantKey h.id e) then 1 else 0
      backlog := h.htu.backlog.filter fun w => !placeKey e w }
    lbc := { h.lbc with priority := h.lbc.priority.filter fun x => !grantKey h.id e x } }

theorem withdrawOffer_purging (hp : h.htu.purge.isSome = true) (e : Holder) : withdrawOffer e h = withoutOffer e h := by
  cases he : e.posted with
  | none => simp [withdrawOffer, he, withoutOffer, grantKey, placeKey]
  | some b =>
    cases b with
    | false =>
      simp [withdrawOffer, he, withoutOffer, grantKey, placeKey, Hw.setHtu, Bool.or_assoc]
    | true =>
      have hk : grantKey h.id e = isGrantTo e.station e.slot (lockAt h.id e.index) := by
        funext x; simp [grantKey, he]
      have hb : (fun w => !placeKey e w) = fun _ => true := by funext w; simp [placeKey, he]
      simp only [withdrawOffer, he, withoutOffer, hk, hb, List.filter_true]
      split
      · simp [departGrant, removePriority, Hw.setHtu, hp]
      · next hn =>
        have hf : h.lbc.priority.filter (fun x => !isGrantTo e.station e.slot (lockAt h.id e.index) x) = h.lbc.priority := by
          refine List.filter_eq_self.mpr fun x hx => ?_
          simpa using fun hc => hn (List.any_eq_true.mpr ⟨x, hx, hc⟩)
        rw [hf]
        rfl

/-- No two GRANTs to station `p` are to one client for one lock. -/
def grantsOnce (p : StationId) (l : List Transaction) : Prop :=
  ((l.filter fun x => x.kind = .grant ∧ x.target = p).map fun x => (x.lock, x.targetSlot)).Nodup

theorem grantsOnce.sublist {p : StationId} {l l' : List Transaction} (hl : grantsOnce p l) (hs : l'.Sublist l) :
    grantsOnce p l' := List.Nodup.sublist ((hs.filter _).map _) hl

/-- An entry has at most one GRANT then, and its withdrawal takes that one. -/
theorem grantsOnce.withdraws {l : List Transaction} {e : Holder} (hl : grantsOnce e.station l) (own : StationId) :
    (l.filter fun x => !grantKey own e x).length + (if l.any (grantKey own e) then 1 else 0) = l.length := by
  have hle : l.countP (grantKey own e) ≤ 1 := by
    have hone := List.nodup_iff_count_le_one.mp hl (lockAt own e.index, e.slot)
    rw [List.count_eq_countP, List.countP_map, List.countP_filter] at hone
    refine le_trans (List.countP_mono_left fun x _ hx => ?_) hone
    simp only [grantKey, isGrantTo, Bool.and_eq_true, decide_eq_true_eq] at hx
    obtain ⟨-, ⟨⟨hk, ht⟩, hslot⟩, hlock⟩ := hx
    simp [hk, ht, hslot, hlock]
  have hsum := List.length_eq_countP_add_countP (grantKey own e) (l := l)
  have hpos : l.any (grantKey own e) = true ↔ 0 < l.countP (grantKey own e) := by
    rw [List.any_eq_true, List.countP_pos_iff]
  have hfil : (l.filter fun x => !grantKey own e x).length = l.countP fun x => ¬grantKey own e x = true := by
    rw [List.countP_eq_length_filter]
    congr 1
    exact List.filter_congr fun x _ => by simp
  rw [hfil]
  split
  · next ha =>
    have := hpos.mp ha
    omega
  · next ha =>
    have := mt hpos.mpr ha
    omega

/-- A purge in progress withdraws the offers of some entries: their GRANTs and places are gone, and nothing else. -/
theorem foldl_withdrawOffer (hp : h.htu.purge.isSome = true) (es : List Holder) :
    ∃ k, es.foldl (fun g e => withdrawOffer e g) h =
      { h with
        htu := { h.htu with
          posted := h.htu.posted - k
          backlog := h.htu.backlog.filter fun w => !es.any (placeKey · w) }
        lbc := { h.lbc with priority := h.lbc.priority.filter fun x => !es.any (grantKey h.id · x) } }
    ∧ ∀ p, (∀ e ∈ es, e.station = p) → grantsOnce p h.lbc.priority →
      k = h.lbc.priority.length - (h.lbc.priority.filter fun x => !es.any (grantKey h.id · x)).length := by
  induction es generalizing h with
  | nil => exact ⟨0, by simp, fun p _ _ => by simp⟩
  | cons e es ih =>
    obtain ⟨k, he, hk⟩ := ih (h := withoutOffer e h) hp
    refine ⟨(if h.lbc.priority.any (grantKey h.id e) then 1 else 0) + k, ?_, fun p hes hl => ?_⟩
    · rw [List.foldl_cons, withdrawOffer_purging hp, he]
      simp only [withoutOffer, List.filter_filter, Nat.sub_sub, List.any_cons, Bool.not_or, Bool.and_comm]
    · have hst := hes e (List.mem_cons_self)
      have hone := (hst ▸ hl : grantsOnce e.station _).withdraws h.id
      have hrest := hk p (fun f hf => hes f (List.mem_cons_of_mem _ hf)) (hl.sublist List.filter_sublist)
      have hboth : h.lbc.priority.filter (fun x => !(e :: es).any (grantKey h.id · x)) =
          (h.lbc.priority.filter fun x => !grantKey h.id e x).filter fun x => !es.any (grantKey h.id · x) := by
        simp only [List.filter_filter, List.any_cons, Bool.not_or, Bool.and_comm]
      have hle := List.length_filter_le (fun x => !es.any (grantKey h.id · x))
        (h.lbc.priority.filter fun x => !grantKey h.id e x)
      rw [hboth]
      change k = (h.lbc.priority.filter fun x => !grantKey h.id e x).length - _ at hrest
      change k = _ - ((h.lbc.priority.filter fun x => !grantKey h.id e x).filter
        fun x => !es.any (grantKey h.id · x)).length at hrest
      omega

/-! ### The walk of a purge (R19) -/

/-- The purge a walk of station `p` starts: what it removes counted, and its locks listed. -/
def purgeOf (p : StationId) (evict rebuild : Bool) (rest : List StationId) (h : Hw) : Purge :=
  let ws := h.htu.waiters.filter (·.station = p)
  let es := h.htu.holders.filter (·.station = p)
  { station := p, evict, removed := ws.length + es.length
    touched := ascending (ws.map (·.index) ++ es.map (·.index)), rebuild, rest }

/-- The offers outstanding to a station. -/
def offersTo (p : StationId) (h : Hw) : List Holder :=
  (h.htu.holders.filter (·.station = p)).filter (·.state = .offered)

theorem mem_offersTo {p : StationId} {e : Holder} :
    e ∈ offersTo p h ↔ e ∈ h.htu.holders ∧ e.station = p ∧ e.state = .offered := by
  simp [offersTo, and_comm (a := e.state = .offered)]

/-- The home engaged by purge `g`, its walk made and `k` fewer GRANTs posted. -/
def walked (g : Purge) (k : Nat) (h : Hw) : Hw :=
  { h with
    htu := { h.htu with
      engaged := .purge, claims := h.htu.claims ++ h.htu.arriving, arriving := []
      waiters := h.htu.waiters.filter (·.station ≠ g.station)
      holders := h.htu.holders.filter (·.station ≠ g.station)
      purge := some g
      posted := h.htu.posted - k
      backlog := h.htu.backlog.filter fun w => !(offersTo g.station h).any (placeKey · w) }
    lbc := { h.lbc with
      priority := h.lbc.priority.filter fun x => !(offersTo g.station h).any (grantKey h.id · x) } }

theorem startPurge_walked (p : StationId) (ev rb : Bool) (rest : List StationId) :
    ∃ k, startPurge p ev rb rest h = walked (purgeOf p ev rb rest h) k h
      ∧ (grantsOnce p h.lbc.priority → k = h.lbc.priority.length
          - (h.lbc.priority.filter fun x => !(offersTo p h).any (grantKey h.id · x)).length) := by
  obtain ⟨k, he, hk⟩ := foldl_withdrawOffer
    (h := h.setHtu
      { h.htu.engage .purge with
        waiters := h.htu.waiters.filter (·.station ≠ p)
        holders := h.htu.holders.filter (·.station ≠ p)
        purge := some (purgeOf p ev rb rest h) }) rfl (offersTo p h)
  exact ⟨k, he, hk p fun e hm => (mem_offersTo.mp hm).2.1⟩

/-- A GRANT of the priority list leaves with the walk exactly when an offer posted to its client has it. -/
theorem any_grantKey {p : StationId} {x : Transaction} :
    (offersTo p h).any (grantKey h.id · x) = true ↔
      x.kind = .grant ∧ x.target = p ∧ ∃ i, x.lock = lockAt h.id i
        ∧ ∃ e ∈ h.htu.holders, e.station = p ∧ e.state = .offered ∧ e.posted = some true ∧ e.index = i
          ∧ e.slot = x.targetSlot := by
  simp only [List.any_eq_true, mem_offersTo, grantKey, isGrantTo, Bool.and_eq_true, decide_eq_true_eq]
  constructor
  · rintro ⟨e, ⟨hm, hst, hof⟩, hpo, ⟨⟨hk, ht⟩, hs⟩, hl⟩
    exact ⟨hk, ht.trans hst, e.index, hl, e, hm, hst, hof, hpo, rfl, hs.symm⟩
  · rintro ⟨hk, ht, i, hl, e, hm, hst, hof, hpo, hi, hs⟩
    exact ⟨e, ⟨hm, hst, hof⟩, hpo, ⟨⟨hk, ht.trans hst.symm⟩, hs.symm⟩, hi ▸ hl⟩

/-- A place of the backlog leaves with the walk exactly when an offer not posted to its client has it. -/
theorem any_placeKey {p : StationId} {w : Waiter} :
    (offersTo p h).any (placeKey · w) = true ↔
      w.station = p ∧ ∃ e ∈ h.htu.holders, e.station = p ∧ e.state = .offered ∧ e.posted = some false
        ∧ e.index = w.index ∧ e.slot = w.slot := by
  simp only [List.any_eq_true, mem_offersTo, placeKey, Bool.and_eq_true, decide_eq_true_eq]
  constructor
  · rintro ⟨e, ⟨hm, hst, hof⟩, hpo, ⟨hi, hw⟩, hs⟩
    exact ⟨hw.trans hst, e, hm, hst, hof, hpo, hi.symm, hs.symm⟩
  · rintro ⟨hw, e, hm, hst, hof, hpo, hi, hs⟩
    exact ⟨e, ⟨hm, hst, hof⟩, hpo, ⟨hi.symm, hw.trans hst.symm⟩, hs.symm⟩

theorem mem_filter_not {α : Type} {l : List α} {f : α → Bool} {a : α} (ha : a ∈ l) :
    a ∈ l.filter (fun b => !f b) ↔ ¬f a = true := by
  simp [ha]

theorem walked_stationWalked (p : StationId) (ev rb : Bool) (rest : List StationId) {k : Nat}
    (hk : grantsOnce p h.lbc.priority → k = h.lbc.priority.length
      - (h.lbc.priority.filter fun x => !(offersTo p h).any (grantKey h.id · x)).length) :
    stationWalked h (walked (purgeOf p ev rb rest h) k h) p (purgeOf p ev rb rest h) := by
  refine ⟨rfl, rfl, ?_, fun i => ?_, Nat.sub_le _ _, fun hl => congrArg (h.htu.posted - ·) (hk hl),
    List.filter_sublist, fun x hx => ?_, List.filter_sublist, fun w hw => ?_⟩
  · simp only [purgeOf, List.countP_eq_length_filter]
  · simp [purgeOf, and_assoc]
  · exact (mem_filter_not hx).trans (not_congr any_grantKey)
  · exact (mem_filter_not hw).trans (not_congr any_placeKey)

/-! ### O43: a purge cause taken -/

theorem exec_purgeCause {p : StationId} {ev : Bool} {rest : List Claim} {s : State} (hf : s.hw.htu.engaged = .free)
    (ha : s.hw.htu.arriving = .purgeCause p ev :: rest) :
    exec .purgeCause s =
      .next { s with hw := takePurgeCause p ev (s.hw.setHtu { s.hw.htu with arriving := rest }) } :=
  exec_claimRow s hf ha Claim.noConfusion Claim.noConfusion

theorem takePurgeCause_inactive {p : StationId} {ev : Bool} (hi : h.home = .inactive) : takePurgeCause p ev h = h :=
  if_pos hi

theorem takePurgeCause_active {p : StationId} {ev : Bool} (hi : h.home ≠ .inactive) :
    takePurgeCause p ev h = startPurge p ev false [] h := if_neg hi

/-- Settles O43: the walk made entry by entry, and the lists filtered where each GRANT and place has its entry. -/
theorem purgeCauseTaken : Obligations.PurgeCauseTaken := by
  intro s p ev rest hf ha offer withdrawn
  rw [exec_purgeCause hf ha]
  refine ⟨fun hi => ?_, fun hi => ?_⟩
  · rw [takePurgeCause_inactive (h := s.hw.setHtu { s.hw.htu with arriving := rest }) hi]
    rfl
  · rw [takePurgeCause_active (h := s.hw.setHtu { s.hw.htu with arriving := rest }) hi]
    obtain ⟨k, he, hk⟩ := startPurge_walked (h := s.hw.setHtu { s.hw.htu with arriving := rest }) p ev false []
    obtain ⟨hhold, hwait, hrem, htou, hpost, hlow, hps, hpm, hbs, hbm⟩ := walked_stationWalked _ ev false [] hk
    refine ⟨_, _, rfl, he ▸ rfl, rfl, rfl, rfl, he ▸ rfl, he ▸ hhold, he ▸ hwait, hrem, htou, he ▸ hpost, he ▸ hlow,
      he ▸ rfl, he ▸ rfl, he ▸ hps, he ▸ hpm, he ▸ hbs, he ▸ hbm, fun hall => ?_, fun hall => ?_, he ▸ rfl,
      he ▸ rfl, he ▸ rfl, he ▸ rfl, he ▸ ⟨rfl, rfl, rfl⟩⟩
    · rw [he]
      refine List.filter_congr fun x hx => ?_
      rw [Bool.eq_iff_iff, Bool.not_eq_true', Bool.eq_false_iff, decide_eq_true_eq]
      exact not_congr (any_grantKey.trans ⟨fun hw => ⟨hw.1, hw.2.1⟩, fun hw => hall x hx hw.1 hw.2⟩)
    · rw [he]
      refine List.filter_congr fun w hw => ?_
      rw [Bool.eq_iff_iff, Bool.not_eq_true', Bool.eq_false_iff, decide_eq_true_eq]
      exact not_congr (any_placeKey.trans ⟨fun h => h.1, fun h => ⟨h, hall w hw h⟩⟩)

/-! ### O50: the rebuild timer expiry -/

theorem stationsOf_sorted (b : BitVec 16) : (stationsOf b).Pairwise fun v w => v.val < w.val :=
  (List.pairwise_lt_finRange 16).sublist List.filter_sublist

theorem mem_stationsOf {b : BitVec 16} {v : StationId} : v ∈ stationsOf b ↔ b.getLsbD v.val = true := by
  simp [stationsOf]

/-- The members of a station set behind its lowest. -/
theorem stationsOf_lowest {b : BitVec 16} {p : StationId} (hp : b.getLsbD p.val = true)
    (hmin : ∀ v : StationId, b.getLsbD v.val = true → p.val ≤ v.val) :
    ∃ rest, stationsOf b = p :: rest ∧ (∀ v, v ∈ rest ↔ v ≠ p ∧ b.getLsbD v.val = true)
      ∧ rest.Pairwise fun v w => v.val < w.val := by
  have hs := stationsOf_sorted b
  have hm := mem_stationsOf.mpr hp
  have hall (v : StationId) := mem_stationsOf (b := b) (v := v)
  cases hl : stationsOf b with
  | nil => rw [hl] at hm; cases hm
  | cons q rest =>
    rw [hl] at hs hm hall
    obtain ⟨hlt, hrest⟩ := List.pairwise_cons.mp hs
    have hq : q = p := by
      rcases List.mem_cons.mp hm with rfl | hr
      · rfl
      · have := hmin q ((hall q).mp List.mem_cons_self)
        have := hlt p hr
        omega
    subst hq
    refine ⟨rest, rfl, fun v => ⟨fun hv => ⟨?_, (hall v).mp (List.mem_cons_of_mem _ hv)⟩, fun hv => ?_⟩, hrest⟩
    · rintro rfl
      exact absurd (hlt v hv) (lt_irrefl _)
    · exact (List.mem_cons.mp ((hall v).mpr hv.2)).resolve_left hv.1

theorem takeRebuildExpiry_of_ne (hh : h.home ≠ .rebuilding) : takeRebuildExpiry h = h := if_neg hh

theorem takeRebuildExpiry_lowest {p : StationId} {rest : List StationId} (hh : h.home = .rebuilding)
    (hl : stationsOf h.htu.awaited = p :: rest) :
    takeRebuildExpiry h = startPurge p true true rest (h.setHtu { h.htu with awaited := 0 }) := by
  rw [takeRebuildExpiry, if_pos hh, hl]

theorem exec_rebuildTimerExpiry (s : State) :
    exec .rebuildTimerExpiry s = .next { s with hw := rebuildExpiry s.hw } := rfl

/-- The expiry is the oldest claim of a free home: it expires now with no claim before it, or was handed before. -/
def oldestExpiry (t : Htu) (rest : List Claim) : Prop :=
  t.engaged = .free ∧ (t.rebuildTimer.isSome = true ∧ t.arriving = [] ∧ rest = []
    ∨ t.rebuildTimer = none ∧ t.arriving = .rebuildExpiry :: rest)

theorem rebuildExpiry_oldest {rest : List Claim} (ho : oldestExpiry h.htu rest) :
    rebuildExpiry h = takeRebuildExpiry (h.setHtu { h.htu with rebuildTimer := none, arriving := rest }) := by
  obtain ⟨hf, ⟨ht, ha, rfl⟩ | ⟨ht, ha⟩⟩ := ho
  · simp [rebuildExpiry, takeArrived, addClaim, Htu.receive, Hw.setHtu, ht, hf, ha, takeClaim]
  · simp [rebuildExpiry, takeArrived, Hw.setHtu, ht, hf, ha, takeClaim]

/-- An expiry behind other claims is not taken. -/
theorem takeArrived_expiry_of_ne (hn : h.htu.engaged ≠ .free ∨ h.htu.arriving.head? ≠ some .rebuildExpiry) :
    takeArrived (· = .rebuildExpiry) h = h := by
  cases he : h.htu.engaged <;> cases ha : h.htu.arriving <;> simp_all [takeArrived]

/-- Settles O50: the expiry handed, discarded, or the first awaited station purged. -/
theorem rebuildTimerExpiry : Obligations.RebuildTimerExpiry := by
  intro s rest t0 expired oldest
  simp only [exec_rebuildTimerExpiry]
  refine ⟨fun ht hw => ?_, fun ht hw => ?_, fun ho hh => ?_, fun ho hh p hp hmin => ?_⟩
  · have hr : addClaim .rebuildExpiry (s.hw.setHtu t0) = { s.hw with htu := received .rebuildExpiry t0 } := rfl
    rw [rebuildExpiry, if_pos ht, hr, takeArrived_expiry_of_ne]
    rcases hw with he | ⟨c, hc, hne⟩
    · exact .inl (by simpa [received, apply_ite, t0] using he)
    · refine .inr ?_
      cases ha : s.hw.htu.arriving with
      | nil => simp [ha] at hc
      | cons d ds =>
        obtain rfl : d = c := by simpa [ha] using hc
        by_cases he : s.hw.htu.engaged = .free <;> simp [received, t0, he, ha, hne]
  · rw [rebuildExpiry, if_neg (by simp [ht]), takeArrived_expiry_of_ne hw]
  · rw [rebuildExpiry_oldest ho, takeRebuildExpiry_of_ne (h := s.hw.setHtu { s.hw.htu with rebuildTimer := none, arriving := rest }) hh]
    rfl
  · obtain ⟨later, hl, hm, hs⟩ := stationsOf_lowest hp hmin
    rw [rebuildExpiry_oldest ho, takeRebuildExpiry_lowest
      (h := s.hw.setHtu { s.hw.htu with rebuildTimer := none, arriving := rest }) hh hl]
    obtain ⟨k, he, hk⟩ := startPurge_walked
      (h := (s.hw.setHtu { s.hw.htu with rebuildTimer := none, arriving := rest }).setHtu
        { s.hw.htu with rebuildTimer := none, arriving := rest, awaited := 0 }) p true true later
    exact ⟨_, _, rfl, he ▸ rfl, rfl, rfl, rfl, hm, hs, he ▸ rfl, he ▸ rfl, he ▸ rfl, he ▸ rfl, he ▸ rfl,
      he ▸ walked_stationWalked _ true true later hk, he ▸ rfl, he ▸ rfl, he ▸ ⟨rfl, rfl, rfl⟩⟩

end Sys2Proof.Machine
end

section
/-! O16: what the registers of the port show, each word a list of fields laid side by side (R167 to R169, R172, R174
to R176). -/

namespace Sys2Proof.Machine

variable {h : Hw}

/-! ### Words of fields laid side by side -/

/-- A field of a word: its lowest bit, its width and the number in it. -/
structure WordField where
  pos : Nat
  width : Nat
  value : Nat

/-- A flag as a field. -/
abbrev WordField.flag (pos : Nat) (b : Bool) : WordField := ⟨pos, 1, b.toNat⟩

/-- The word some fields make. -/
def laid : List WordField → Word
  | [] => 0
  | f :: fs => fieldAt f.pos f.value ||| laid fs

/-- Two fields share no bit. -/
def WordField.apart (f g : WordField) : Prop := f.pos + f.width ≤ g.pos ∨ g.pos + g.width ≤ f.pos

/-- The fields stand side by side in a word, and each number fits its field. -/
def fits (fs : List WordField) : Prop :=
  (∀ f ∈ fs, f.value < 2 ^ f.width ∧ f.pos + f.width ≤ 32) ∧ fs.Pairwise WordField.apart

theorem fieldAt_zero (pos : Nat) : fieldAt pos 0 = 0 := by simp [fieldAt]

theorem flagAt_eq_fieldAt (pos : Nat) (b : Bool) : flagAt pos b = fieldAt pos b.toNat := by
  cases b <;> simp [flagAt, fieldAt, BitVec.twoPow]

theorem bits_zero (lo n : Nat) : bits 0 lo n = 0 := by
  ext i hi; simp

theorem bits_fieldAt_apart {f g : WordField} (hf : f.value < 2 ^ f.width) (ha : f.apart g) :
    bits (fieldAt f.pos f.value) g.pos g.width = 0 := by
  rcases ha with ha | ha
  · exact bits_fieldAt_above (hf.trans_le (Nat.pow_le_pow_right (by omega) (by omega))) (by omega)
  · exact bits_fieldAt_below ha

theorem bits_laid_apart {fs : List WordField} {g : WordField} (hv : ∀ f ∈ fs, f.value < 2 ^ f.width)
    (ha : ∀ f ∈ fs, f.apart g) : bits (laid fs) g.pos g.width = 0 := by
  induction fs with
  | nil => exact bits_zero _ _
  | cons f fs ih =>
    obtain ⟨hvf, hvs⟩ := List.forall_mem_cons.mp hv
    obtain ⟨haf, has⟩ := List.forall_mem_cons.mp ha
    rw [laid, bits_or, bits_fieldAt_apart hvf haf, ih hvs has]
    exact BitVec.zero_or

/-- A field of a word is read where it was laid. -/
theorem bits_laid {fs : List WordField} {g : WordField} (hf : fits fs) (hg : g ∈ fs) :
    (bits (laid fs) g.pos g.width).toNat = g.value := by
  induction fs with
  | nil => cases hg
  | cons f fs ih =>
    obtain ⟨hin, hap⟩ := hf
    obtain ⟨⟨hvf, hpf⟩, hrest⟩ := List.forall_mem_cons.mp hin
    obtain ⟨hap, haps⟩ := List.pairwise_cons.mp hap
    rcases List.mem_cons.mp hg with rfl | hg
    · rw [laid, bits_or, bits_fieldAt hpf,
        bits_laid_apart (fun f hf => (hrest f hf).1) (fun f hf => (hap f hf).symm)]
      exact (congrArg BitVec.toNat BitVec.or_zero).trans (Nat.mod_eq_of_lt hvf)
    · rw [laid, bits_or, bits_fieldAt_apart hvf (hap g hg)]
      exact (congrArg BitVec.toNat BitVec.zero_or).trans (ih ⟨hrest, haps⟩ hg)

theorem getLsbD_eq_bits (w : Word) (i : Nat) : w.getLsbD i = decide ((bits w i 1).toNat = 1) := by
  have h0 : (bits w i 1).getLsbD 0 = w.getLsbD i := by simp
  rw [← h0]
  generalize bits w i 1 = b
  revert b
  decide

/-- A flag of a word is read where it was laid. -/
theorem getLsbD_laid {fs : List WordField} {pos : Nat} {b : Bool} (hf : fits fs) (hg : .flag pos b ∈ fs) :
    (laid fs).getLsbD pos = b := by
  rw [getLsbD_eq_bits, bits_laid hf hg]
  cases b <;> rfl

/-! ### Slot status (R169) -/

/-- The fields of slot status A. -/
def fieldsA (n : SlotId) (h : Hw) : List WordField :=
  let r := h.rqt.slot n
  [⟨0, 3, slotStateCode r.state⟩, ⟨3, 2, (r.operation.map fun o => (opCode o.op).toNat).getD 0⟩,
    .flag 7 ((r.operation.map (·.tryFlag)).getD false), ⟨8, 12, (r.operation.map (·.lock.val)).getD 0⟩,
    ⟨5, 2, (modeCode (shownMode n h)).toNat⟩, ⟨20, 3, refusalCode r.refusal⟩, ⟨24, 4, r.attempts⟩]

theorem slotStatusA_eq_laid (n : SlotId) : slotStatusA n h = laid (fieldsA n h) := by
  unfold slotStatusA fieldsA
  simp only [Hw.slot, laid, ← flagAt_eq_fieldAt, BitVec.or_assoc]
  cases (h.rqt.slot n).operation <;> simp [fieldAt_zero, flagAt, BitVec.or_assoc]

theorem slotStateCode_lt (s : SlotState) : slotStateCode s < 8 := by cases s <;> decide

theorem refusalCode_lt (c : RefusalCode) : refusalCode c < 8 := by cases c <;> decide

theorem fieldsA_fits {n : SlotId} (ha : (h.rqt.slot n).attempts ≤ 15) : fits (fieldsA n h) := by
  have hs := slotStateCode_lt (h.rqt.slot n).state
  have hr := refusalCode_lt (h.rqt.slot n).refusal
  have hm := (modeCode (shownMode n h)).isLt
  have ho : ((h.rqt.slot n).operation.map fun o => (opCode o.op).toNat).getD 0 < 2 ^ 2 := by
    cases (h.rqt.slot n).operation with
    | none => decide
    | some o => exact (opCode o.op).isLt
  have hl : ((h.rqt.slot n).operation.map (·.lock.val)).getD 0 < 2 ^ 12 := by
    cases (h.rqt.slot n).operation with
    | none => decide
    | some o => exact o.lock.isLt
  have ht := Bool.toNat_lt (((h.rqt.slot n).operation.map (·.tryFlag)).getD false)
  refine ⟨?_, by simp [fieldsA, WordField.apart]⟩
  simp only [fieldsA, List.forall_mem_cons, List.not_mem_nil, false_imp_iff, implies_true, and_true]
  omega

/-- The fields of slot status B. -/
def fieldsB (n : SlotId) (h : Hw) : List WordField :=
  let r := h.rqt.slot n
  [⟨0, 8, revokedCount n h.rqt.holds⟩, ⟨8, 2, causeCode r.cause⟩, .flag 10 r.waitTimer.isSome,
    .flag 11 r.backoffTimer.isSome, .flag 12 r.aborted, .flag 13 r.owed, .flag 14 (h.cqu.notice n),
    ⟨16, 16, remaining 1000 r.waitTimer⟩]

theorem slotStatusB_eq_laid (n : SlotId) : slotStatusB n h = laid (fieldsB n h) := by
  simp only [slotStatusB, fieldsB, Hw.slot, laid, flagAt_eq_fieldAt, BitVec.or_assoc]
  exact congrArg _ (by simp)

theorem causeCode_lt (c : Option CancelCause) : causeCode c < 4 := by rcases c with _ | c <;> [skip; cases c] <;> decide

/-- The time a timer shows, rounded up, and 0 when it is stopped. -/
theorem remaining_eq (unit : Nat) (t : Option Nat) :
    remaining unit t = (t.map fun k => (k + unit - 1) / unit).getD 0 := by cases t <;> rfl

theorem fieldsB_fits {n : SlotId} (hr : revokedCount n h.rqt.holds ≤ 128)
    (hw : remaining 1000 (h.rqt.slot n).waitTimer ≤ 65535) : fits (fieldsB n h) := by
  have hc := causeCode_lt (h.rqt.slot n).cause
  refine ⟨?_, by simp [fieldsB, WordField.apart]⟩
  simp only [fieldsB, List.forall_mem_cons, List.not_mem_nil, false_imp_iff, implies_true, and_true, pow_one,
    Bool.toNat_lt, true_and]
  omega

theorem slotStatusShown_holds (n : SlotId) : slotStatusShown h n := by
  unfold slotStatusShown
  intro r a b waits hatt hrev hwait
  have ha : a = laid (fieldsA n h) := slotStatusA_eq_laid n
  have hb : b = laid (fieldsB n h) := slotStatusB_eq_laid n
  have hfa : fits (fieldsA n h) := fieldsA_fits hatt
  have hfb : fits (fieldsB n h) := fieldsB_fits hrev ((remaining_eq 1000 _).trans_le hwait)
  rw [ha, hb]
  refine ⟨⟨?_, ?_, ?_, ?_, ?_, ?_, ?_⟩, ?_, ?_, ?_, ?_, ?_, ?_, ?_, ?_⟩
  · refine (bits_laid (g := ⟨0, 3, slotStateCode r.state⟩) hfa (by simp [fieldsA, r])).trans ?_
    cases r.state <;> rfl
  · refine (bits_laid (g := ⟨3, 2, (r.operation.map fun o => (opCode o.op).toNat).getD 0⟩) hfa
      (by simp [fieldsA, r])).trans ?_
    rcases r.operation with _ | ⟨op, _, _, _⟩ <;> [rfl; cases op <;> rfl]
  · refine (bits_laid (g := ⟨5, 2, (modeCode (shownMode n h)).toNat⟩) hfa (by simp [fieldsA])).trans ?_
    have hm : shownMode n h = r.operation.bind fun o =>
        if o.op = .acquire then o.mode else (findHold n o.lock h.rqt.holds).map (·.mode) := by
      simp only [shownMode, Hw.slot, r]
      cases (h.rqt.slot n).operation <;> rfl
    rw [hm]
    rcases (r.operation.bind _ : Option Mode) with _ | m <;> [rfl; cases m <;> rfl]
  · exact getLsbD_laid hfa (by simp [fieldsA, r])
  · exact bits_laid (g := ⟨8, 12, (r.operation.map (·.lock.val)).getD 0⟩) hfa (by simp [fieldsA, r])
  · refine (bits_laid (g := ⟨20, 3, refusalCode r.refusal⟩) hfa (by simp [fieldsA, r])).trans ?_
    cases r.refusal <;> rfl
  · exact bits_laid (g := ⟨24, 4, r.attempts⟩) hfa (by simp [fieldsA, r])
  · exact bits_laid (g := ⟨0, 8, revokedCount n h.rqt.holds⟩) hfb (by simp [fieldsB])
  · refine (bits_laid (g := ⟨8, 2, causeCode r.cause⟩) hfb (by simp [fieldsB, r])).trans ?_
    rcases r.cause with _ | c <;> [rfl; cases c <;> rfl]
  · exact getLsbD_laid hfb (by simp [fieldsB, r])
  · exact getLsbD_laid hfb (by simp [fieldsB, r])
  · exact getLsbD_laid hfb (by simp [fieldsB, r])
  · exact getLsbD_laid hfb (by simp [fieldsB, r])
  · exact getLsbD_laid hfb (by simp [fieldsB])
  · refine (bits_laid (g := ⟨16, 16, remaining 1000 r.waitTimer⟩) hfb (by simp [fieldsB, r])).trans ?_
    exact remaining_eq 1000 _

/-! ### Station status (R172) -/

/-- The fields of station status 0. -/
def stationFields0 (h : Hw) : List WordField :=
  [⟨0, 3, stationCode h.scu.station⟩, .flag 3 h.scu.flushing, .flag 4 h.scu.frozen,
    ⟨5, 2, commandCode h.scu.commandStatus⟩, ⟨7, 2, configCode h.scu.configStatus⟩, ⟨9, 4, h.scu.id.val⟩,
    ⟨13, 2, h.scu.bpsel.val⟩, ⟨15, 4, h.lbc.pointer.val⟩, .flag 19 h.mbu.wonMark, .flag 20 h.port.srstAsserted]

theorem stationStatus0_eq_laid : stationStatus0 h = laid (stationFields0 h) := by
  simp only [stationStatus0, stationFields0, laid, flagAt_eq_fieldAt, BitVec.or_assoc]
  exact congrArg _ (by simp)

theorem stationFields0_fits : fits (stationFields0 h) := by
  have hs : stationCode h.scu.station < 8 := by cases h.scu.station <;> decide
  have hc : commandCode h.scu.commandStatus < 4 := by cases h.scu.commandStatus <;> decide
  have hf : configCode h.scu.configStatus < 4 := by cases h.scu.configStatus <;> decide
  refine ⟨?_, by simp [stationFields0, WordField.apart]⟩
  simp only [stationFields0, List.forall_mem_cons, List.not_mem_nil, false_imp_iff, implies_true, and_true, pow_one,
    Bool.toNat_lt, true_and]
  omega

/-- The fields of station status 1. -/
def stationFields1 (h : Hw) : List WordField :=
  [⟨0, 6, h.lbc.normal.length⟩, ⟨8, 6, h.lbc.priority.length⟩, ⟨16, 7, h.cqu.queue.length⟩,
    .flag 23 h.lbc.record.isSome, .flag 24 (lineAsserted h 0), .flag 25 (lineAsserted h 1),
    .flag 26 (lineAsserted h 2), .flag 27 (lineAsserted h 3)]

theorem stationStatus1_eq_laid : stationStatus1 h = laid (stationFields1 h) := by
  simp only [stationStatus1, stationFields1, laid, flagAt_eq_fieldAt, BitVec.or_assoc]
  exact congrArg _ (by simp)

theorem stationFields1_fits (hn : h.lbc.normal.length ≤ 34) (hp : h.lbc.priority.length ≤ 28)
    (hq : h.cqu.queue.length ≤ 65) : fits (stationFields1 h) := by
  refine ⟨?_, by simp [stationFields1, WordField.apart]⟩
  simp only [stationFields1, List.forall_mem_cons, List.not_mem_nil, false_imp_iff, implies_true, and_true, pow_one,
    Bool.toNat_lt, true_and]
  omega

/-- The fields of station status 2 for an answer in flight. -/
def answerFields (a : Answer) : List WordField :=
  [.flag 0 true, ⟨1, 5, a.slot.val⟩, ⟨6, 12, a.lock.val⟩, .flag 18 (a.mode = .exclusive), .flag 19 a.accept,
    .flag 20 a.cancelToEnd]

theorem stationStatus2_eq_laid {a : Answer} (ha : h.rqt.answer = some a) :
    stationStatus2 h = laid (answerFields a) := by
  simp only [stationStatus2, ha, answerFields, laid, flagAt_eq_fieldAt, BitVec.or_assoc]
  exact congrArg _ (by simp)

theorem answerFields_fits (a : Answer) : fits (answerFields a) := by
  refine ⟨?_, by simp [answerFields, WordField.apart]⟩
  simp only [answerFields, List.forall_mem_cons, List.not_mem_nil, false_imp_iff, implies_true, and_true, pow_one,
    Bool.toNat_lt, true_and]
  omega

/-- The fields of station status 3. -/
def walkerFields (h : Hw) : List WordField :=
  [⟨0, 2, phaseCode h.rqt.phase⟩, ⟨2, 3, h.rqt.outstanding⟩, ⟨8, 4, h.rqt.homes.length⟩]

theorem stationStatus3_eq_laid : stationStatus3 h = laid (walkerFields h) := by
  simp only [stationStatus3, walkerFields, laid, BitVec.or_assoc]
  exact congrArg _ (by simp)

theorem walkerFields_fits (ho : h.rqt.outstanding ≤ 4) (hl : h.rqt.homes.length ≤ 15) : fits (walkerFields h) := by
  have hp : phaseCode h.rqt.phase < 4 := by
    rcases h.rqt.phase with _ | p <;> [skip; cases p] <;> decide
  refine ⟨?_, by simp [walkerFields, WordField.apart]⟩
  simp only [walkerFields, List.forall_mem_cons, List.not_mem_nil, false_imp_iff, implies_true, and_true]
  omega

theorem bits_shiftLeft (w : Word) {k lo n : Nat} (hk : k ≤ lo) (hn : lo + n ≤ 32) :
    bits (w <<< k) lo n = bits w (lo - k) n := by
  ext i hi
  have h1 : lo + i < 32 := by omega
  have h2 : ¬lo + i < k := by omega
  have h3 : lo + i - k = lo - k + i := by omega
  simp [h1, h2, h3, BitVec.getLsbD_eq_getElem (show lo - k + i < 32 by omega)]

/-- Packed stations are read four bits each. -/
theorem bits_packStations (l : List StationId) {k : Nat} (hk : k < 8) :
    (bits (packStations l) (4 * k) 4).toNat = (l[k]?.map (·.val)).getD 0 := by
  induction l generalizing k with
  | nil => simp [packStations]
  | cons s l ih =>
    rw [packStations, bits_or]
    cases k with
    | zero =>
      have hz : bits (packStations l <<< 4) 0 4 = 0 := by
        ext i hi
        simp [show i < 32 by omega, hi]
      rw [Nat.mul_zero, bits_fieldAt (by omega), hz]
      exact (congrArg BitVec.toNat BitVec.or_zero).trans (Nat.mod_eq_of_lt s.isLt)
    | succ k =>
      rw [bits_fieldAt_above (show s.val < 2 ^ (4 * (k + 1) - 0) from s.isLt.trans_le
          (Nat.pow_le_pow_right (show 0 < 2 by decide) (show 4 ≤ 4 * (k + 1) - 0 by omega))) (by omega),
        bits_shiftLeft _ (by omega) (by omega), show 4 * (k + 1) - 4 = 4 * k by omega]
      exact (congrArg BitVec.toNat BitVec.zero_or).trans (ih (by omega))

theorem stationStatusShown_holds : stationStatusShown h := by
  unfold stationStatusShown
  intro w home
  refine ⟨?_, fun hn hp hq => ?_, fun ha => ?_, fun a ha => ?_, fun ho hl => ?_⟩
  · have hf : fits (stationFields0 h) := stationFields0_fits
    rw [show w 0 = laid (stationFields0 h) from stationStatus0_eq_laid]
    refine ⟨?_, ?_, ?_, ?_, ?_, ?_, ?_, ?_, ?_, ?_⟩
    · refine (bits_laid (g := ⟨0, 3, stationCode h.scu.station⟩) hf (by simp [stationFields0])).trans ?_
      cases h.scu.station <;> rfl
    · exact getLsbD_laid hf (by simp [stationFields0])
    · exact getLsbD_laid hf (by simp [stationFields0])
    · refine (bits_laid (g := ⟨5, 2, commandCode h.scu.commandStatus⟩) hf (by simp [stationFields0])).trans ?_
      cases h.scu.commandStatus <;> rfl
    · refine (bits_laid (g := ⟨7, 2, configCode h.scu.configStatus⟩) hf (by simp [stationFields0])).trans ?_
      cases h.scu.configStatus <;> rfl
    · exact bits_laid (g := ⟨9, 4, h.scu.id.val⟩) hf (by simp [stationFields0])
    · exact bits_laid (g := ⟨13, 2, h.scu.bpsel.val⟩) hf (by simp [stationFields0])
    · exact bits_laid (g := ⟨15, 4, h.lbc.pointer.val⟩) hf (by simp [stationFields0])
    · exact getLsbD_laid hf (by simp [stationFields0])
    · exact getLsbD_laid hf (by simp [stationFields0])
  · have hf : fits (stationFields1 h) := stationFields1_fits hn hp hq
    rw [show w 1 = laid (stationFields1 h) from stationStatus1_eq_laid]
    refine ⟨?_, ?_, ?_, ?_, fun k => ?_⟩
    · exact bits_laid (g := ⟨0, 6, h.lbc.normal.length⟩) hf (by simp [stationFields1])
    · exact bits_laid (g := ⟨8, 6, h.lbc.priority.length⟩) hf (by simp [stationFields1])
    · exact bits_laid (g := ⟨16, 7, h.cqu.queue.length⟩) hf (by simp [stationFields1])
    · exact getLsbD_laid hf (by simp [stationFields1])
    · exact getLsbD_laid hf (by fin_cases k <;> simp [stationFields1])
  · exact show stationStatus2 h = 0 by rw [stationStatus2, ha]
  · have hf : fits (answerFields a) := answerFields_fits a
    rw [show w 2 = laid (answerFields a) from stationStatus2_eq_laid ha]
    refine ⟨?_, ?_, ?_, ?_, ?_, ?_⟩
    · exact getLsbD_laid hf (by simp [answerFields])
    · exact bits_laid (g := ⟨1, 5, a.slot.val⟩) hf (by simp [answerFields])
    · exact bits_laid (g := ⟨6, 12, a.lock.val⟩) hf (by simp [answerFields])
    · exact getLsbD_laid hf (by simp [answerFields])
    · exact getLsbD_laid hf (by simp [answerFields])
    · exact getLsbD_laid hf (by simp [answerFields])
  · have hf : fits (walkerFields h) := walkerFields_fits ho hl
    rw [show w 3 = laid (walkerFields h) from stationStatus3_eq_laid]
    refine ⟨?_, ?_, ?_, fun k => ?_, fun k => ?_⟩
    · refine (bits_laid (g := ⟨0, 2, phaseCode h.rqt.phase⟩) hf (by simp [walkerFields])).trans ?_
      rcases h.rqt.phase with _ | p <;> [rfl; cases p <;> rfl]
    · exact bits_laid (g := ⟨2, 3, h.rqt.outstanding⟩) hf (by simp [walkerFields])
    · exact bits_laid (g := ⟨8, 4, h.rqt.homes.length⟩) hf (by simp [walkerFields])
    · refine (bits_packStations (h.rqt.homes.take 8) k.isLt).trans ?_
      simp [home]
    · refine (bits_packStations ((h.rqt.homes.drop 8).take 7) (by omega)).trans ?_
      simp [home]

/-! ### The hold table view (R174) -/

/-- The fields of a hold table view. -/
def holdFields (e : Hold) : List WordField :=
  [.flag 0 true, ⟨1, 12, e.lock.val⟩, ⟨13, 5, e.slot.val⟩, .flag 18 (e.mode = .exclusive),
    ⟨19, 3, holdStateCode e.state⟩, .flag 22 e.mark]

theorem holdFields_fits (e : Hold) : fits (holdFields e) := by
  have hs : holdStateCode e.state < 8 := by cases e.state <;> decide
  refine ⟨?_, by simp [holdFields, WordField.apart]⟩
  simp only [holdFields, List.forall_mem_cons, List.not_mem_nil, false_imp_iff, implies_true, and_true, pow_one,
    Bool.toNat_lt, true_and]
  omega

theorem holdView_none {pos : Nat} (hn : ∀ e, (pos, e) ∉ h.rqt.holds) : holdView pos h = 0 := by
  have hf : h.rqt.holds.find? (fun p => decide (p.1 = pos)) = none :=
    List.find?_eq_none.mpr fun p hp hpos => hn p.2 (by
      have hpos : p.1 = pos := by simpa using hpos
      exact hpos ▸ hp)
  rw [holdView, hf]

theorem holdView_some {pos : Nat} {e : Hold} (hl : holdTableLaw h.rqt.holds) (he : (pos, e) ∈ h.rqt.holds) :
    holdView pos h = laid (holdFields e) := by
  have hf : h.rqt.holds.find? (fun p => decide (p.1 = pos)) = some (pos, e) :=
    find?_of_unique he (by simp) fun p hp hpos => by
      have hnd : (h.rqt.holds.map Prod.fst).Nodup := List.pairwise_map.mpr (hl.1.imp fun hlt => Nat.ne_of_lt hlt.1)
      exact List.inj_on_of_nodup_map hnd hp he (by simpa using hpos)
  rw [holdView, hf]
  simp only [holdFields, laid, flagAt_eq_fieldAt, BitVec.or_assoc]
  exact congrArg _ (by simp)

theorem holdShown_holds (pos : Fin 128) : holdShown h pos := by
  unfold holdShown
  intro w hl
  refine ⟨fun hn => holdView_none hn, fun e he => ?_⟩
  have hf : fits (holdFields e) := holdFields_fits e
  rw [show w = laid (holdFields e) from holdView_some hl he]
  refine ⟨?_, ?_, ?_, ?_, ?_, ?_⟩
  · exact getLsbD_laid hf (by simp [holdFields])
  · exact bits_laid (g := ⟨1, 12, e.lock.val⟩) hf (by simp [holdFields])
  · exact bits_laid (g := ⟨13, 5, e.slot.val⟩) hf (by simp [holdFields])
  · exact getLsbD_laid hf (by simp [holdFields])
  · refine (bits_laid (g := ⟨19, 3, holdStateCode e.state⟩) hf (by simp [holdFields])).trans ?_
    cases e.state <;> rfl
  · exact getLsbD_laid hf (by simp [holdFields])

/-! ### The home table summary and the stalled-lock list (R175) -/

/-- The fields of home table summary 0. -/
def homeFields0 (h : Hw) : List WordField :=
  [⟨0, 2, homeCode h.home⟩, .flag 2 h.htu.purge.isSome, ⟨3, 4, (h.htu.purge.map (·.station.val)).getD 0⟩,
    ⟨8, 4, h.htu.posted⟩, ⟨16, 8, min h.htu.claims.length 255⟩]

theorem homeSummary0_eq_laid : homeSummary0 h = laid (homeFields0 h) := by
  simp only [homeSummary0, homeFields0, laid, ← flagAt_eq_fieldAt, BitVec.or_assoc, saturate]
  cases h.htu.purge <;> simp [fieldAt_zero, flagAt, BitVec.or_assoc]

theorem homeFields0_fits (hp : h.htu.posted ≤ 8) : fits (homeFields0 h) := by
  have hh : homeCode h.home < 4 := by cases h.home <;> decide
  have hs : (h.htu.purge.map (·.station.val)).getD 0 < 2 ^ 4 := by
    cases h.htu.purge with
    | none => decide
    | some g => exact g.station.isLt
  refine ⟨?_, by simp [homeFields0, WordField.apart]⟩
  simp only [homeFields0, List.forall_mem_cons, List.not_mem_nil, false_imp_iff, implies_true, and_true, pow_one,
    Bool.toNat_lt, true_and]
  omega

/-- The fields of home table summary 1. -/
def homeFields1 (h : Hw) : List WordField := [⟨0, 10, h.htu.holders.length⟩, ⟨16, 8, h.htu.waiters.length⟩]

theorem homeSummary1_eq_laid : homeSummary1 h = laid (homeFields1 h) := by
  simp only [homeSummary1, homeFields1, laid]
  exact congrArg _ (by simp)

theorem homeFields1_fits (hh : h.htu.holders.length ≤ 512) (hw : h.htu.waiters.length ≤ 192) :
    fits (homeFields1 h) := by
  refine ⟨?_, by simp [homeFields1, WordField.apart]⟩
  simp only [homeFields1, List.forall_mem_cons, List.not_mem_nil, false_imp_iff, implies_true, and_true]
  omega

/-- The fields of home table summary 2. -/
def homeFields2 (h : Hw) : List WordField :=
  [⟨0, 10, h.htu.backlog.length⟩, ⟨16, 8, h.htu.stalled.length⟩,
    ⟨24, 8, min ((h.htu.purge.map (·.removed)).getD 0) 255⟩]

theorem homeSummary2_eq_laid : homeSummary2 h = laid (homeFields2 h) := by
  simp only [homeSummary2, homeFields2, laid, BitVec.or_assoc, saturate]
  cases h.htu.purge <;> simp [fieldAt_zero]

theorem homeFields2_fits (hb : h.htu.backlog.length ≤ 512) (hs : h.htu.stalled.length ≤ 192) :
    fits (homeFields2 h) := by
  refine ⟨?_, by simp [homeFields2, WordField.apart]⟩
  simp only [homeFields2, List.forall_mem_cons, List.not_mem_nil, false_imp_iff, implies_true, and_true]
  omega

/-- The fields of home table summary 3. -/
def homeFields3 (h : Hw) : List WordField :=
  [⟨0, 16, h.htu.awaited.toNat⟩, ⟨16, 10, remaining 100 h.htu.rebuildTimer⟩]

theorem homeSummary3_eq_laid : homeSummary3 h = laid (homeFields3 h) := by
  have ha : BitVec.zeroExtend 32 h.htu.awaited = fieldAt 0 h.htu.awaited.toNat := by
    refine BitVec.eq_of_toNat_eq ?_
    simp [fieldAt]
  simp only [homeSummary3, homeFields3, laid, ha]
  exact congrArg _ (by simp)

theorem homeFields3_fits (hr : remaining 100 h.htu.rebuildTimer ≤ 800) : fits (homeFields3 h) := by
  have ha := h.htu.awaited.isLt
  refine ⟨?_, by simp [homeFields3, WordField.apart]⟩
  simp only [homeFields3, List.forall_mem_cons, List.not_mem_nil, false_imp_iff, implies_true, and_true]
  omega

/-- The fields of a word of the stalled-lock list view. -/
def stalledFields (k : Nat) (h : Hw) : List WordField :=
  [⟨0, 8, stalledAt (4 * k) h⟩, ⟨8, 8, stalledAt (4 * k + 1) h⟩, ⟨16, 8, stalledAt (4 * k + 2) h⟩,
    ⟨24, 8, stalledAt (4 * k + 3) h⟩]

theorem stalledView_eq_laid (k : Nat) : stalledView k h = laid (stalledFields k h) := by
  simp only [stalledView, stalledFields, laid, BitVec.or_assoc]
  exact congrArg _ (by simp)

theorem stalledAt_eq (pos : Nat) : stalledAt pos h = (h.htu.stalled[pos]?.map (·.val)).getD 0 := by
  unfold stalledAt
  cases h.htu.stalled[pos]? <;> rfl

theorem stalledAt_lt (pos : Nat) : stalledAt pos h < 256 := by
  rw [stalledAt_eq]
  cases h.htu.stalled[pos]? with
  | none => decide
  | some i => exact i.isLt

theorem stalledFields_fits (k : Nat) : fits (stalledFields k h) := by
  refine ⟨?_, by simp [stalledFields, WordField.apart]⟩
  simp [stalledFields, stalledAt_lt]

theorem bits_stalledView (pos : Nat) :
    (bits (stalledView (pos / 4) h) (8 * (pos % 4)) 8).toNat = stalledAt pos h := by
  have hm : pos % 4 < 4 := Nat.mod_lt _ (by decide)
  have hp : 4 * (pos / 4) + pos % 4 = pos := Nat.div_add_mod pos 4
  rw [stalledView_eq_laid]
  refine bits_laid (g := ⟨8 * (pos % 4), 8, stalledAt pos h⟩) (stalledFields_fits _) ?_
  rw [← hp]
  generalize pos / 4 = k at *
  generalize pos % 4 = j at *
  interval_cases j <;> simp [stalledFields, Nat.add_mod, Nat.add_div]

theorem homeShown_holds : homeShown h := by
  unfold homeShown
  intro w rebuilds
  refine ⟨fun hp => ?_, fun hh hw => ?_, fun hb hs => ?_, fun hr => ?_, fun pos => ?_⟩
  · have hf : fits (homeFields0 h) := homeFields0_fits hp
    rw [show w 0 = laid (homeFields0 h) from homeSummary0_eq_laid]
    refine ⟨?_, ?_, ?_, ?_, ?_⟩
    · refine (bits_laid (g := ⟨0, 2, homeCode h.home⟩) hf (by simp [homeFields0])).trans ?_
      cases h.home <;> rfl
    · exact getLsbD_laid hf (by simp [homeFields0])
    · exact bits_laid (g := ⟨3, 4, (h.htu.purge.map (·.station.val)).getD 0⟩) hf (by simp [homeFields0])
    · exact bits_laid (g := ⟨8, 4, h.htu.posted⟩) hf (by simp [homeFields0])
    · exact bits_laid (g := ⟨16, 8, min h.htu.claims.length 255⟩) hf (by simp [homeFields0])
  · have hf : fits (homeFields1 h) := homeFields1_fits hh hw
    rw [show w 1 = laid (homeFields1 h) from homeSummary1_eq_laid]
    exact ⟨bits_laid (g := ⟨0, 10, h.htu.holders.length⟩) hf (by simp [homeFields1]),
      bits_laid (g := ⟨16, 8, h.htu.waiters.length⟩) hf (by simp [homeFields1])⟩
  · have hf : fits (homeFields2 h) := homeFields2_fits hb hs
    rw [show w 2 = laid (homeFields2 h) from homeSummary2_eq_laid]
    exact ⟨bits_laid (g := ⟨0, 10, h.htu.backlog.length⟩) hf (by simp [homeFields2]),
      bits_laid (g := ⟨16, 8, h.htu.stalled.length⟩) hf (by simp [homeFields2]),
      bits_laid (g := ⟨24, 8, min ((h.htu.purge.map (·.removed)).getD 0) 255⟩) hf (by simp [homeFields2])⟩
  · have hf : fits (homeFields3 h) := homeFields3_fits ((remaining_eq 100 _).trans_le hr)
    rw [show w 3 = laid (homeFields3 h) from homeSummary3_eq_laid]
    refine ⟨BitVec.eq_of_toNat_eq ?_, ?_⟩
    · exact bits_laid (g := ⟨0, 16, h.htu.awaited.toNat⟩) hf (by simp [homeFields3])
    · exact (bits_laid (g := ⟨16, 10, remaining 100 h.htu.rebuildTimer⟩) hf (by simp [homeFields3])).trans
        (remaining_eq 100 _)
  · exact (bits_stalledView pos.val).trans (stalledAt_eq _)

/-! ### The membership view (R176) -/

/-- The fields of a membership view. -/
def memberFields (p : StationId) (h : Hw) : List WordField :=
  let m := h.mbu.member p
  [⟨0, 2, memberCode m.state⟩, .flag 2 m.timer.isSome, .flag 3 (m.timer.isSome && silenceHeld p h),
    ⟨8, 11, (m.timer.map (· / 100)).getD 0⟩]

theorem membershipView_eq_laid (p : StationId) : membershipView p h = laid (memberFields p h) := by
  simp only [membershipView, memberFields, laid, ← flagAt_eq_fieldAt, BitVec.or_assoc]
  cases (h.mbu.member p).timer <;> simp [fieldAt_zero, flagAt]

theorem memberFields_fits {p : StationId} (he : ((h.mbu.member p).timer.map (· / 100)).getD 0 ≤ 1400) :
    fits (memberFields p h) := by
  have hm : memberCode (h.mbu.member p).state < 4 := by cases (h.mbu.member p).state <;> decide
  refine ⟨?_, by simp [memberFields, WordField.apart]⟩
  simp only [memberFields, List.forall_mem_cons, List.not_mem_nil, false_imp_iff, implies_true, and_true, pow_one,
    Bool.toNat_lt, true_and]
  omega

theorem memberShown_holds (p : StationId) : memberShown h p := by
  unfold memberShown
  intro m w elapsed he
  have hf : fits (memberFields p h) := memberFields_fits he
  rw [show w = laid (memberFields p h) from membershipView_eq_laid p]
  refine ⟨?_, ?_, ?_, ?_⟩
  · refine (bits_laid (g := ⟨0, 2, memberCode m.state⟩) hf (by simp [memberFields, m])).trans ?_
    cases m.state <;> rfl
  · exact getLsbD_laid hf (by simp [memberFields, m])
  · exact getLsbD_laid hf (by simp [memberFields, m])
  · exact bits_laid (g := ⟨8, 11, (m.timer.map (· / 100)).getD 0⟩) hf (by simp [memberFields, m])

/-! ### Reads at the port, and the slot parameter (R167, R168) -/

theorem portRead_asserted {a : BitVec 10} {be : BitVec 4} (hp : h.port.porAsserted = true) : portRead a be h = 0 :=
  if_pos hp

theorem laneMask_full : laneMask 15 = BitVec.allOnes 32 := by decide +kernel

theorem portRead_full (a : BitVec 10) :
    portRead a 15 h = if h.port.porAsserted = true then 0 else registerWord (registerAt a) h := by
  simp only [portRead, ne_eq, not_true_eq_false, and_false, if_false, laneMask_full, BitVec.and_allOnes]

theorem portRead_partialHead {a : BitVec 10} {be : BitVec 4} (ha : registerAt a = .queueHead) (hb : be ≠ 15) :
    portRead a be h = 0 := by
  simp only [portRead, ha, hb, ne_eq, not_false_eq_true, and_self, if_true, ite_self]

theorem portRead_bytes {a : BitVec 10} (be : BitVec 4) (hp : h.port.porAsserted = false)
    (ha : registerAt a ≠ .queueHead) : portRead a be h = registerWord (registerAt a) h &&& laneMask be := by
  simp only [portRead, hp, ha, false_and, if_false, Bool.false_eq_true]

theorem zeroExtend_bits_low (w : Word) : BitVec.zeroExtend 32 (bits w 0 16) = w &&& 0xFFFF#32 := by
  have hm : (0xFFFF#32 : Word) = BitVec.ofNat 32 (2 ^ 16 - 1) := rfl
  refine BitVec.eq_of_toNat_eq ?_
  rw [BitVec.toNat_and, hm, BitVec.toNat_ofNat, Nat.mod_eq_of_lt (by decide), Nat.and_two_pow_sub_one_eq_mod]
  rw [BitVec.toNat_setWidth, BitVec.extractLsb'_toNat, Nat.shiftRight_zero]
  exact Nat.mod_eq_of_lt ((Nat.mod_lt _ (by decide)).trans (by decide))

/-- Settles O16: each word by the fields laid in it, and the parameter register read back. -/
theorem slotParameterStored : Obligations.SlotParameterStored := by
  refine ⟨fun s n w hp => ?_, fun h a => portRead_full a, fun h a be => ⟨portRead_asserted, portRead_partialHead,
    fun hp ha lane i => ?_⟩, fun h n => slotStatusShown_holds n, fun h => stationStatusShown_holds,
    fun h pos => holdShown_holds pos, fun h => homeShown_holds, fun h p => memberShown_holds p⟩
  · refine ⟨_, acts_atPort hp _, ?_, fun m hm => ?_, rfl⟩
    · exact (congrArg (BitVec.zeroExtend 32) (Vector.getElem_set_self n.isLt)).trans (zeroExtend_bits_low w)
    · exact Vector.getElem_set_ne n.isLt m.isLt fun hv => hm (Fin.ext hv.symm)
  · rw [portRead_bytes be hp ha, BitVec.getLsbD_and, getLsbD_laneMask, Bool.and_comm]

end Sys2Proof.Machine
end

section
/-! O17: the queue head read, and the words of its entries (R105, R107, R170). -/

namespace Sys2Proof.Machine

variable {h : Hw} {s : State}

/-! ### The words of the entries (R170) -/

theorem resultCode_eq (c : ResultCode) : (resultCode c).toNat = resultCodes.idxOf c + 1 := by cases c <;> rfl

theorem resultDetail_eq (d : ResultDetail) : (resultDetail d).toNat = resultDetails.idxOf d := by cases d <;> rfl

/-- The fields of a RESULT's word, from the lowest on: each stands above those written behind it. -/
theorem entryWord_result (n : SlotId) (op : Op) (l : LockId) (m : Option Mode) (c : ResultCode) (d : ResultDetail) :
    resultFields (entryWord h (.result n op l m c d)) n op l m c d := by
  refine ⟨bits_append_lowest _ _, ?slot, ?op, ?mode, ?lock, ?code, ?detail⟩
  case slot =>
    refine (congrArg BitVec.toNat (a₂ := BitVec.ofNat 5 n.val) ?_).trans (Nat.mod_eq_of_lt n.isLt)
    exact (bits_append_above _ _ (by decide)).trans (bits_append_lowest _ _)
  case op =>
    refine Eq.trans (b := opCode op) ?_ (by cases op <;> rfl)
    iterate 2 refine (bits_append_above _ _ (by decide)).trans ?_
    exact bits_append_lowest _ _
  case mode =>
    refine Eq.trans (b := modeCode m) ?_ (by rcases m with _ | m <;> [rfl; cases m <;> rfl])
    iterate 3 refine (bits_append_above _ _ (by decide)).trans ?_
    exact bits_append_lowest _ _
  case lock =>
    refine (congrArg BitVec.toNat (a₂ := BitVec.ofNat 12 l.val) ?_).trans (Nat.mod_eq_of_lt l.isLt)
    iterate 4 refine (bits_append_above _ _ (by decide)).trans ?_
    exact bits_append_lowest _ _
  case code =>
    refine (congrArg BitVec.toNat (a₂ := resultCode c) ?_).trans (resultCode_eq c)
    iterate 5 refine (bits_append_above _ _ (by decide)).trans ?_
    exact bits_append_lowest _ _
  case detail =>
    refine (congrArg BitVec.toNat (a₂ := resultDetail d) ?_).trans (resultDetail_eq d)
    iterate 6 refine (bits_append_above _ _ (by decide)).trans ?_
    exact BitVec.extractLsb'_eq_self

theorem peerField_toNat (p : Option StationId) : (peerField p).toNat = (p.map (·.val)).getD 0 := by
  cases p with
  | none => rfl
  | some p => exact Nat.mod_eq_of_lt p.isLt

/-- The fields of the word of the STATION entry, from the lowest on. -/
theorem eventWord_fields (ev : EventSet) : stationFields (eventWord ev) ev := by
  refine ⟨bits_append_lowest _ _, getLsbD_of_bits ?joined, getLsbD_of_bits ?online, getLsbD_of_bits ?duplicate,
    getLsbD_of_bits ?peerJoined, getLsbD_of_bits ?peerLeft, getLsbD_of_bits ?peerLost, getLsbD_of_bits ?evicted,
    getLsbD_of_bits ?rebuild, getLsbD_of_bits ?flush, getLsbD_of_bits ?left, ?joinedId, ?leftId, ?lostId, ?evictedId,
    ?rebuildId⟩
  case joined => exact (bits_append_above _ _ (by decide)).trans (bits_append_lowest _ _)
  case online =>
    iterate 2 refine (bits_append_above _ _ (by decide)).trans ?_
    exact bits_append_lowest _ _
  case duplicate =>
    iterate 3 refine (bits_append_above _ _ (by decide)).trans ?_
    exact bits_append_lowest _ _
  case peerJoined =>
    iterate 4 refine (bits_append_above _ _ (by decide)).trans ?_
    exact bits_append_lowest _ _
  case peerLeft =>
    iterate 5 refine (bits_append_above _ _ (by decide)).trans ?_
    exact bits_append_lowest _ _
  case peerLost =>
    iterate 6 refine (bits_append_above _ _ (by decide)).trans ?_
    exact bits_append_lowest _ _
  case evicted =>
    iterate 7 refine (bits_append_above _ _ (by decide)).trans ?_
    exact bits_append_lowest _ _
  case rebuild =>
    iterate 8 refine (bits_append_above _ _ (by decide)).trans ?_
    exact bits_append_lowest _ _
  case flush =>
    iterate 9 refine (bits_append_above _ _ (by decide)).trans ?_
    exact bits_append_lowest _ _
  case left =>
    iterate 10 refine (bits_append_above _ _ (by decide)).trans ?_
    exact bits_append_lowest _ _
  case joinedId =>
    refine (congrArg BitVec.toNat (a₂ := peerField ev.peerJoined) ?_).trans (peerField_toNat _)
    iterate 11 refine (bits_append_above _ _ (by decide)).trans ?_
    exact bits_append_lowest _ _
  case leftId =>
    refine (congrArg BitVec.toNat (a₂ := peerField ev.peerLeft) ?_).trans (peerField_toNat _)
    iterate 12 refine (bits_append_above _ _ (by decide)).trans ?_
    exact bits_append_lowest _ _
  case lostId =>
    refine (congrArg BitVec.toNat (a₂ := peerField ev.peerLost) ?_).trans (peerField_toNat _)
    iterate 13 refine (bits_append_above _ _ (by decide)).trans ?_
    exact bits_append_lowest _ _
  case evictedId =>
    refine (congrArg BitVec.toNat (a₂ := peerField ev.evictedBy) ?_).trans (peerField_toNat _)
    iterate 14 refine (bits_append_above _ _ (by decide)).trans ?_
    exact bits_append_lowest _ _
  case rebuildId =>
    refine (congrArg BitVec.toNat (a₂ := peerField ev.rebuildEvicted) ?_).trans (peerField_toNat _)
    iterate 15 refine (bits_append_above _ _ (by decide)).trans ?_
    exact BitVec.extractLsb'_eq_self

/-! ### The read (R105) -/

theorem exec_queueHeadRead (be : BitVec 4) : exec (.queueHeadRead be) s = .next { s with hw := queueRead be s.hw } :=
  rfl

theorem queueRead_zero {be : BitVec 4} (hz : h.port.porAsserted = true ∨ be ≠ 15) :
    queueRead be h = setReadData 0 h := if_pos hz

theorem queueRead_whole (hp : h.port.porAsserted = false) : queueRead 15 h = readHead h :=
  if_neg (by simp [hp])

theorem readHead_empty (hq : h.cqu.queue = []) : readHead h = setReadData 0 h := by rw [readHead, hq]

theorem readHead_cons {e : QueueEntry} {rest : List QueueEntry} (hq : h.cqu.queue = e :: rest) :
    readHead h =
      setReadData (entryWord h e) (afterRead e { h with cqu := { h.cqu with queue := rest } }) := by rw [readHead, hq]

theorem readDone_done {n : SlotId} (hd : (h.slot n).state = .done) :
    readDone n h = h.setSlot n (.idleWith (h.slot n).refusal (h.slot n).owed) := if_pos hd

theorem routeOf_eq_routedTo (c : Scu) (e : QueueEntry) : routeOf c e = routedTo c e := by cases e <;> rfl

/-- Settles O17: the head by its kind, and the LEVEL lines. -/
theorem queueHeadRead : Obligations.QueueHeadRead := by
  refine ⟨fun s be hz => ?_, fun s hp => ⟨fun hq => ?_, fun n op l m c d rest hq hd => ?_, fun n rest hq => ?_,
    fun rest hq => ⟨eventWord s.hw.cqu.events, ?_, eventWord_fields _⟩, fun w => rfl⟩, fun h k hl => ?_⟩
  · rw [exec_queueHeadRead, queueRead_zero hz]
    rfl
  · rw [exec_queueHeadRead, queueRead_whole hp, readHead_empty hq]
    rfl
  · rw [exec_queueHeadRead, queueRead_whole hp, readHead_cons hq]
    have hdone := readDone_done (h := { s.hw with cqu := { s.hw.cqu with queue := rest } }) hd
    refine ⟨_, rfl, ?_⟩
    simp only [afterRead, hdone]
    exact ⟨rfl, slot_setSlot_same _ _ _, sameSlotsBut_setSlot _ _ _, rfl, ⟨rfl, rfl, rfl, rfl, rfl, rfl⟩, rfl, rfl,
      rfl, rfl, rfl, entryWord_result (h := s.hw) n op l m c d⟩
  · rw [exec_queueHeadRead, queueRead_whole hp, readHead_cons hq]
    rfl
  · rw [exec_queueHeadRead, queueRead_whole hp, readHead_cons hq]
    rfl
  · simp only [lineAsserted, hl, List.any_eq_true, decide_eq_true_eq, routeOf_eq_routedTo]

end Sys2Proof.Machine
end

section
/-! O18: a configuration write, and its reading back (R173). -/

namespace Sys2Proof.Machine

variable {h : Hw} {s : State} {w : Word}

/-! ### A word masked to some of its fields -/

/-- The fields of a word at some places. -/
def fieldsOf (w : Word) (ps : List (Nat × Nat)) : List WordField :=
  ps.map fun p => ⟨p.1, p.2, (bits w p.1 p.2).toNat⟩

/-- The fields at some places with all their bits set. -/
def onesAt (ps : List (Nat × Nat)) : List WordField := ps.map fun p => ⟨p.1, p.2, 2 ^ p.2 - 1⟩

theorem and_fieldAt (p n : Nat) : w &&& fieldAt p (2 ^ n - 1) = fieldAt p (bits w p n).toNat := by
  refine BitVec.eq_of_getLsbD_eq fun i hi => ?_
  rw [BitVec.getLsbD_and, getLsbD_fieldAt, getLsbD_fieldAt, Nat.testBit_two_pow_sub_one, BitVec.testBit_toNat,
    BitVec.getLsbD_extractLsb']
  by_cases hle : p ≤ i
  · have hi' : p + (i - p) = i := by omega
    simp [hle, hi, hi', Bool.and_comm]
  · simp [hle]

theorem and_laid (ps : List (Nat × Nat)) : w &&& laid (onesAt ps) = laid (fieldsOf w ps) := by
  induction ps with
  | nil => exact BitVec.and_zero
  | cons p ps ih =>
    change w &&& (fieldAt p.1 (2 ^ p.2 - 1) ||| laid (onesAt ps)) = _
    rw [BitVec.and_or_distrib_left, and_fieldAt, ih]
    rfl

/-! ### Routes (R173) -/

theorem routeField_isSome {v : BitVec 3} : (routeField v).isSome = true ↔ v.toNat < 5 := by
  revert v; decide

theorem routeField_eq_none {v : BitVec 3} (hv : 5 ≤ v.toNat) : routeField v = none := by
  revert v; decide

theorem routeCode_routeField {v : BitVec 3} (hv : v.toNat < 5) : routeCode ((routeField v).getD .none) = v := by
  revert v; decide

theorem routeFields_none (hw : ∃ j : Fin 8, 5 ≤ (bits w (4 * j.val) 3).toNat) : routeFields w = none := by
  obtain ⟨j, hj⟩ := hw
  refine if_neg fun hall => ?_
  have hs := routeField_isSome.mp (List.all_eq_true.mp hall j (List.mem_finRange j))
  omega

theorem routeFields_some (hw : ∀ j : Fin 8, (bits w (4 * j.val) 3).toNat < 5) :
    routeFields w = some (Vector.ofFn fun j => (routeField (bits w (4 * j.val) 3)).getD .none) :=
  if_pos (List.all_eq_true.mpr fun j _ => routeField_isSome.mpr (hw j))

/-- The places of the eight routes of a word. -/
def routePlaces : List (Nat × Nat) := (List.finRange 8).map fun j => (4 * j.val, 3)

theorem mask_routes : (0x77777777#32 : Word) = laid (onesAt routePlaces) := by decide +kernel

theorem routesWord_eq_laid (k : Fin 4) : routesWord k h = laid ((List.finRange 8).map fun j =>
    ⟨4 * j.val, 3, (routeCode (h.scu.routes.get ⟨8 * k.val + j.val, by omega⟩)).toNat⟩) := by
  unfold routesWord
  generalize List.finRange 8 = js
  induction js with
  | nil => rfl
  | cons j js ih => rw [List.foldr_cons, ih]; rfl

/-- A slot's route after a write of routes register `k`. -/
theorem get_setRoutes (k : Fin 4) (rs : Vector Route 8) (c : Scu) (n : Fin 32) :
    (c.setRoutes k rs).routes.get n =
      if n.val / 8 = k.val then rs.get ⟨n.val % 8, by omega⟩ else c.routes.get n := by
  simp [Scu.setRoutes, get_eq_getElem]

theorem routesWord_setConfigStatus (k : Fin 4) (c : ConfigStatus) : routesWord k (setConfigStatus c h) = routesWord k h :=
  rfl

/-- A routes register reads back as it was written, but for the bits that are not read. -/
theorem routesWord_written (hw : ∀ j : Fin 8, (bits w (4 * j.val) 3).toNat < 5) (k : Fin 4) {rs : Vector Route 8}
    (hr : routeFields w = some rs) (c : ConfigStatus) :
    routesWord k (setConfigStatus c { h with scu := h.scu.setRoutes k rs }) = w &&& 0x77777777#32 := by
  obtain rfl := Option.some.inj ((routeFields_some hw).symm.trans hr)
  rw [routesWord_setConfigStatus, mask_routes, and_laid, routesWord_eq_laid, fieldsOf, routePlaces, List.map_map]
  refine congrArg laid (List.map_congr_left fun j _ => ?_)
  have hdiv : (8 * k.val + j.val) / 8 = k.val := by omega
  have hmod : (8 * k.val + j.val) % 8 = j.val := by omega
  have hget : (h.scu.setRoutes k (Vector.ofFn fun j => (routeField (bits w (4 * j.val) 3)).getD .none)).routes.get
      ⟨8 * k.val + j.val, by omega⟩ = (routeField (bits w (4 * j.val) 3)).getD .none := by
    rw [get_setRoutes, if_pos hdiv, get_eq_getElem, Vector.getElem_ofFn]
    simp only [hmod]
  exact congrArg (WordField.mk _ 3) (congrArg BitVec.toNat ((congrArg routeCode hget).trans (routeCode_routeField (hw j))))

theorem routesWord_others {i k : Fin 4} (hi : i ≠ k) (rs : Vector Route 8) (c : ConfigStatus) :
    routesWord i (setConfigStatus c { h with scu := h.scu.setRoutes k rs }) = routesWord i h := by
  rw [routesWord_setConfigStatus, routesWord_eq_laid, routesWord_eq_laid]
  refine congrArg laid (List.map_congr_left fun j _ => ?_)
  have hdiv : (8 * i.val + j.val) / 8 ≠ k.val := fun hk => hi (Fin.ext (by omega))
  simp [get_setRoutes, hdiv]

/-! ### The station configuration register (R173) -/

theorem stationConfigFields_none
    (hw : 5 ≤ (bits w 0 3).toNat ∨ bits w 8 6 = 0 ∨ bits w 16 4 = 0 ∨ (bits w 20 3).toNat < 2) :
    stationConfigFields w = none := by
  unfold stationConfigFields
  rcases hw with hr | hf
  · rw [routeField_eq_none hr]
  · cases routeField (bits w 0 3) with
    | none => rfl
    | some r => exact if_pos hf

/-- The configuration a word in range spells. -/
def configOf (w : Word) : StationConfig :=
  { route := (routeField (bits w 0 3)).getD .none, modes := modeFields w, backoffBase := bits w 8 6
    attemptLimit := bits w 16 4, lossThreshold := bits w 20 3 }

theorem stationConfigFields_some (hr : (bits w 0 3).toNat < 5) (hb : bits w 8 6 ≠ 0) (ha : bits w 16 4 ≠ 0)
    (hl : 2 ≤ (bits w 20 3).toNat) : stationConfigFields w = some (configOf w) := by
  obtain ⟨r, hf⟩ := Option.isSome_iff_exists.mp (routeField_isSome.mpr hr)
  have hn : ¬(bits w 8 6 = 0 ∨ bits w 16 4 = 0 ∨ (bits w 20 3).toNat < 2) := by
    rintro (h | h | h)
    · exact hb h
    · exact ha h
    · omega
  simp only [stationConfigFields, configOf, hf, if_neg hn, Option.getD_some]

/-- The places of the fields of the station configuration register. -/
def configPlaces : List (Nat × Nat) := [(0, 3), (4, 1), (5, 1), (6, 1), (7, 1), (8, 6), (16, 4), (20, 3)]

theorem mask_config : (0x007F3FF7#32 : Word) = laid (onesAt configPlaces) := by decide +kernel

/-- The fields of a configuration. -/
def configFields (f : StationConfig) : List WordField :=
  [⟨0, 3, (routeCode f.route).toNat⟩, .flag 4 (f.modes.get 0 = .pulse), .flag 5 (f.modes.get 1 = .pulse),
    .flag 6 (f.modes.get 2 = .pulse), .flag 7 (f.modes.get 3 = .pulse), ⟨8, 6, f.backoffBase.toNat⟩,
    ⟨16, 4, f.attemptLimit.toNat⟩, ⟨20, 3, f.lossThreshold.toNat⟩]

theorem configWord_setConfig (f : StationConfig) (c : Cqu) :
    configWord { h with scu := h.scu.setConfig f, cqu := c } = laid (configFields f) := by
  simp only [configWord, Scu.setConfig, configFields, laid, flagAt_eq_fieldAt, BitVec.or_assoc]
  exact congrArg _ (by simp; rfl)

theorem configWord_setConfigStatus (c : ConfigStatus) : configWord (setConfigStatus c h) = configWord h := rfl

theorem modeFields_pulse (i : Fin 4) :
    (decide ((modeFields w).get i = .pulse)).toNat = (bits w (4 + i.val) 1).toNat := by
  have hm : ((modeFields w).get i = .pulse) ↔ w.getLsbD (4 + i.val) = true := by
    simp [modeFields, get_eq_getElem]
  have hb := getLsbD_eq_bits w (4 + i.val)
  simp only [hm, hb, decide_eq_true_eq]
  have := (bits w (4 + i.val) 1).isLt
  by_cases h1 : (bits w (4 + i.val) 1).toNat = 1
  · simp [h1]
  · have : (bits w (4 + i.val) 1).toNat = 0 := by omega
    simp [this]

theorem modes_configOf (i : Fin 4) :
    (decide ((configOf w).modes.get i = .pulse)).toNat = (bits w (4 + i.val) 1).toNat := modeFields_pulse i

theorem routeCode_configOf (hr : (bits w 0 3).toNat < 5) : routeCode (configOf w).route = bits w 0 3 :=
  routeCode_routeField hr

theorem configFields_configOf (hr : (bits w 0 3).toNat < 5) : configFields (configOf w) = fieldsOf w configPlaces := by
  simp only [configFields, WordField.flag, modes_configOf, routeCode_configOf hr]
  rfl

/-- The station configuration register reads back as it was written, but for the bits that are not read. -/
theorem configWord_written (hr : (bits w 0 3).toNat < 5) (c : Cqu) (k : ConfigStatus) :
    configWord (setConfigStatus k { h with scu := h.scu.setConfig (configOf w), cqu := c }) = w &&& 0x007F3FF7#32 := by
  rw [configWord_setConfigStatus, configWord_setConfig, configFields_configOf hr, mask_config, and_laid]

theorem get_changeModes (before after : Vector LineMode 4) (c : Cqu) (i : Fin 4) :
    (c.changeModes before after).lines.get i =
      if before.get i = after.get i then c.lines.get i else ⟨0, .idle⟩ := by
  simp [Cqu.changeModes, get_eq_getElem]

/-! ### The write (R173) -/

theorem exec_configurationWrite (hp : s.hw.port.porAsserted = false) (r : ConfigRegister) (w : Word) :
    exec (.configurationWrite r w) s = .next { s with hw := configWrite r w s.hw } := acts_atPort hp _

theorem configWrite_frozen (hf : h.scu.frozen = true) (r : ConfigRegister) :
    configWrite r w h = setConfigStatus .frozen h := if_pos hf

theorem configWrite_range (hf : h.scu.frozen = false) {r : ConfigRegister} (hw : writeConfig r w h = none) :
    configWrite r w h = setConfigStatus .range h := by
  rw [configWrite, if_neg (by simp [hf]), hw]

theorem configWrite_taken (hf : h.scu.frozen = false) {r : ConfigRegister} {g : Hw} (hw : writeConfig r w h = some g) :
    configWrite r w h = setConfigStatus .taken g := by
  rw [configWrite, if_neg (by simp [hf]), hw]

/-- Settles O18: refused FROZEN, refused RANGE, or taken and read back, by register. -/
theorem configurationWrite : Obligations.ConfigurationWrite := by
  intro s w hp refused
  simp only [exec_configurationWrite hp]
  refine ⟨fun hf r => ?_, fun hf => ⟨fun k hw => ?_, fun hw => ?_, fun k hw => ?_, fun hr hb ha hl => ?_⟩⟩
  · rw [configWrite_frozen hf]
    rfl
  · rw [configWrite_range (r := .routes k) hf (by rw [writeConfig, routeFields_none hw]; rfl)]
    rfl
  · rw [configWrite_range (r := .station) hf (by rw [writeConfig, stationConfigFields_none hw]; rfl)]
    rfl
  · have hs := routeFields_some hw
    rw [configWrite_taken (r := .routes k) hf (by rw [writeConfig, hs]; rfl)]
    refine ⟨_, rfl, routesWord_written hw k hs _, fun i hi => routesWord_others hi _ _, ?_⟩
    simp only [setConfigStatus, Scu.setRoutes]
  · rw [configWrite_taken (r := .station) hf (by rw [writeConfig, stationConfigFields_some hr hb ha hl]; rfl)]
    refine ⟨_, rfl, configWord_written hr _ _, rfl, rfl, rfl, fun i hi => ?_, fun i hi => ?_, rfl, rfl, rfl, rfl, rfl⟩
    · exact (get_changeModes _ _ _ i).trans (if_neg (Ne.symm hi))
    · exact (get_changeModes _ _ _ i).trans (if_pos hi.symm)

end Sys2Proof.Machine
end

section
/-! What happens to the waits at one home (R93, R95, R96): slot after slot, each on its own. Shared by O48, O55 and
O56. -/

namespace Sys2Proof.Machine

variable {e f g h t : Hw} {n m : SlotId} {p : StationId}

/-! ### What the slots share stays -/

/-- The blocks beside the slots, the hold table, the normal list and the queue are as they were. -/
structure WaitFrame (g t : Hw) : Prop where
  scu : t.scu = g.scu
  htu : t.htu = g.htu
  mbu : t.mbu = g.mbu
  port : t.port = g.port
  priority : t.lbc.priority = g.lbc.priority
  record : t.lbc.record = g.lbc.record
  waitLimits : t.rqt.waitLimits = g.rqt.waitLimits
  homes : t.rqt.homes = g.rqt.homes
  phase : t.rqt.phase = g.rqt.phase
  outstanding : t.rqt.outstanding = g.rqt.outstanding
  responses : t.rqt.responses = g.rqt.responses

theorem WaitFrame.refl (h : Hw) : WaitFrame h h := by constructor <;> rfl

theorem WaitFrame.trans (h1 : WaitFrame f g) (h2 : WaitFrame g t) : WaitFrame f t where
  scu := h2.scu.trans h1.scu
  htu := h2.htu.trans h1.htu
  mbu := h2.mbu.trans h1.mbu
  port := h2.port.trans h1.port
  priority := h2.priority.trans h1.priority
  record := h2.record.trans h1.record
  waitLimits := h2.waitLimits.trans h1.waitLimits
  homes := h2.homes.trans h1.homes
  phase := h2.phase.trans h1.phase
  outstanding := h2.outstanding.trans h1.outstanding
  responses := h2.responses.trans h1.responses

theorem WaitFrame.id (hf : WaitFrame g t) : t.id = g.id := congrArg Scu.id hf.scu

/-- An answer in flight told that the wait has failed (R91, R95). -/
def Answer.failed (a : Answer) : Answer := { a with failHeld := true }

/-- The answer in flight stays, or is told of a failure. -/
def answerKept (g t : Hw) : Prop := t.rqt.answer = g.rqt.answer ∨ t.rqt.answer = g.rqt.answer.map Answer.failed

theorem answerKept.trans (h1 : answerKept f g) (h2 : answerKept g t) : answerKept f t := by
  have hidem : (f.rqt.answer.map Answer.failed).map Answer.failed = f.rqt.answer.map Answer.failed := by
    rw [Option.map_map]; rfl
  rcases h1 with h1 | h1 <;> rcases h2 with h2 | h2
  · exact .inl (h2.trans h1)
  · exact .inr (h2.trans (by rw [h1]))
  · exact .inr (h2.trans h1)
  · exact .inr (h2.trans (by rw [h1, hidem]))

theorem answerKept.inFlight (ha : answerKept g t) (n : SlotId) : acceptInFlight n t = acceptInFlight n g := by
  unfold acceptInFlight
  rcases ha with ha | ha <;> rw [ha]
  cases g.rqt.answer <;> rfl

/-- What concerns slot `n` is as it was: its record, its entries in the normal list and in the hold table; no entry
has come into the hold table, and no result has left the queue. -/
structure KeepsSlot (n : SlotId) (g t : Hw) : Prop where
  slot : t.rqt.slot n = g.rqt.slot n
  entries : ∀ x, isSlotEntry n x = true → (x ∈ t.lbc.normal ↔ x ∈ g.lbc.normal)
  answer : answerKept g t
  queue : ∀ e ∈ g.cqu.queue, e ∈ t.cqu.queue
  sublist : t.rqt.holds.Sublist g.rqt.holds
  holds : ∀ e ∈ g.rqt.holds, e.2.slot = n → e ∈ t.rqt.holds

theorem KeepsSlot.refl (n : SlotId) (h : Hw) : KeepsSlot n h h :=
  ⟨rfl, fun _ _ => Iff.rfl, .inl rfl, fun _ he => he, List.Sublist.refl _, fun _ he _ => he⟩

theorem KeepsSlot.trans (h1 : KeepsSlot n f g) (h2 : KeepsSlot n g t) : KeepsSlot n f t where
  slot := h2.slot.trans h1.slot
  entries x hx := (h2.entries x hx).trans (h1.entries x hx)
  answer := h1.answer.trans h2.answer
  queue e he := h2.queue e (h1.queue e he)
  sublist := h2.sublist.trans h1.sublist
  holds e he hn := h2.holds e (h1.holds e he hn) hn

theorem KeepsSlot.listed (hk : KeepsSlot n g t) : slotEntryListed n t = slotEntryListed n g := by
  rw [Bool.eq_iff_iff, slotEntryListed, slotEntryListed, List.any_eq_true, List.any_eq_true]
  exact ⟨fun ⟨x, hx, hn⟩ => ⟨x, (hk.entries x hn).mp hx, hn⟩, fun ⟨x, hx, hn⟩ => ⟨x, (hk.entries x hn).mpr hx, hn⟩⟩

theorem holdTableLaw_sublist {l l' : List (Nat × Hold)} (hl : holdTableLaw l) (hs : l'.Sublist l) : holdTableLaw l' :=
  ⟨hl.1.sublist hs, fun p hp => hl.2 p (hs.subset hp)⟩

/-- An event raised concerns no slot. -/
theorem raiseEvent_keepsSlot (ev : Event) (n : SlotId) (h : Hw) : KeepsSlot n h (raiseEvent ev h) where
  slot := by rw [raiseEvent_rqt]
  entries := by simp
  answer := .inl (by rw [raiseEvent_rqt])
  queue e he := by
    rw [raiseEvent_queue]
    split
    · exact List.mem_append_left _ he
    · exact he
  sublist := by rw [raiseEvent_rqt]
  holds e he _ := by rwa [raiseEvent_rqt]

theorem raiseEvent_waitFrame (ev : Event) (h : Hw) : WaitFrame h (raiseEvent ev h) := by
  constructor <;> simp

/-! ### One slot's turn -/

/-- What the turn of slot `n` does to its reservations: its operation ends, and the reservation goes with it, or it
does not end, and none goes. -/
def slotSettles (n : SlotId) (g t : Hw) : Prop :=
  (t.rqt.holds = g.rqt.holds ∧ ((t.rqt.slot n).state = .done → (g.rqt.slot n).state = .done))
    ∨ (g.rqt.slot n).state ≠ .done ∧ (t.rqt.slot n).state = .done
      ∧ ∃ o, (g.rqt.slot n).operation = some o ∧ t.rqt.holds = withoutReservation n o.lock g.rqt.holds

/-- The turn of slot `n` concerns that slot alone. -/
structure SlotTurn (n : SlotId) (g t : Hw) : Prop where
  frame : WaitFrame g t
  events : t.cqu.events = g.cqu.events
  notices : t.cqu.notices = g.cqu.notices
  others : sameSlotsBut n g.rqt t.rqt
  entries : ∀ x, isSlotEntry n x = false → (x ∈ t.lbc.normal ↔ x ∈ g.lbc.normal)
  answer : answerKept g t
  queue : ∀ e ∈ g.cqu.queue, e ∈ t.cqu.queue
  settles : slotSettles n g t

theorem SlotTurn.refl (n : SlotId) (h : Hw) : SlotTurn n h h :=
  ⟨WaitFrame.refl h, rfl, rfl, fun _ _ => rfl, fun _ _ => Iff.rfl, .inl rfl, fun _ he => he, .inl ⟨rfl, fun hd => hd⟩⟩

theorem withoutReservation_sublist (n : SlotId) (l : LockId) (t : List (Nat × Hold)) :
    (withoutReservation n l t).Sublist t := by
  unfold withoutReservation
  split
  · exact List.filter_sublist
  · exact List.Sublist.refl _

theorem mem_withoutReservation_of_slot {l : LockId} {t : List (Nat × Hold)} {e : Nat × Hold} (he : e ∈ t)
    (hn : ¬(e.2.slot = n ∧ e.2.lock = l)) : e ∈ withoutReservation n l t := by
  unfold withoutReservation
  split
  · exact List.mem_filter.mpr ⟨he, decide_eq_true hn⟩
  · exact he

theorem SlotTurn.sublist (ht : SlotTurn n g t) : t.rqt.holds.Sublist g.rqt.holds := by
  rcases ht.settles with ⟨hh, -⟩ | ⟨-, -, o, -, hh⟩ <;> rw [hh]
  exact withoutReservation_sublist n o.lock _

/-- The turn of one slot leaves what concerns another. -/
theorem SlotTurn.keeps (ht : SlotTurn n g t) (hn : m ≠ n) : KeepsSlot m g t where
  slot := ht.others m hn
  entries x hx := ht.entries x (by
    simp only [isSlotEntry, Bool.and_eq_true, decide_eq_true_eq] at hx
    simp [isSlotEntry, hx.2, hn])
  answer := ht.answer
  queue := ht.queue
  sublist := ht.sublist
  holds e he hs := by
    rcases ht.settles with ⟨hh, -⟩ | ⟨-, -, o, -, hh⟩ <;> rw [hh]
    · exact he
    · exact mem_withoutReservation_of_slot he fun hc => hn (hs.symm.trans hc.1)

/-! ### The turns of all slots -/

/-- At a station `own` every turn of `f` concerns its slot alone. -/
def turns (own : StationId) (f : SlotId → Hw → Hw) : Prop := ∀ n g, g.id = own → SlotTurn n g (f n g)

/-- From `h` to `t` each slot has had its turn of `f`, and what concerns it was else left alone. -/
def turned (f : SlotId → Hw → Hw) (h t : Hw) : Prop :=
  WaitFrame h t ∧ ∀ n, ∃ g, WaitFrame h g ∧ KeepsSlot n h g ∧ SlotTurn n g (f n g) ∧ KeepsSlot n (f n g) t

theorem turns_others {f : SlotId → Hw → Hw} (hf : turns h.id f) (l : List SlotId) :
    WaitFrame h (l.foldl (fun g k => f k g) h) ∧ (l.foldl (fun g k => f k g) h).cqu.events = h.cqu.events
      ∧ (l.foldl (fun g k => f k g) h).cqu.notices = h.cqu.notices
      ∧ ∀ m, m ∉ l → KeepsSlot m h (l.foldl (fun g k => f k g) h) := by
  induction l generalizing h with
  | nil => exact ⟨WaitFrame.refl h, rfl, rfl, fun m _ => KeepsSlot.refl m h⟩
  | cons k l ih =>
    have ht := hf k h rfl
    obtain ⟨hfr, hev, hno, hk⟩ := ih (h := f k h) (by rw [turns, ht.frame.id]; exact hf)
    refine ⟨ht.frame.trans hfr, hev.trans ht.events, hno.trans ht.notices, fun m hm => ?_⟩
    exact (ht.keeps fun he => hm (he ▸ List.mem_cons_self)).trans (hk m fun hl => hm (List.mem_cons_of_mem _ hl))

theorem turns_each {f : SlotId → Hw → Hw} (hf : turns h.id f) {l : List SlotId} (hl : l.Nodup) (hn : n ∈ l) :
    ∃ g, WaitFrame h g ∧ KeepsSlot n h g ∧ SlotTurn n g (f n g)
      ∧ KeepsSlot n (f n g) (l.foldl (fun g k => f k g) h) := by
  induction l generalizing h with
  | nil => cases hn
  | cons k l ih =>
    have ht := hf k h rfl
    have hf' : turns (f k h).id f := by rw [turns, ht.frame.id]; exact hf
    obtain ⟨hk, hl⟩ := List.nodup_cons.mp hl
    rcases List.mem_cons.mp hn with rfl | hn
    · exact ⟨h, WaitFrame.refl h, KeepsSlot.refl n h, ht, (turns_others hf' l).2.2.2 n hk⟩
    · obtain ⟨g, hfr, hkeep, hturn, hrest⟩ := ih hf' hl hn
      exact ⟨g, ht.frame.trans hfr, (ht.keeps fun he => hk (he ▸ hn)).trans hkeep, hturn, hrest⟩

theorem forSlots_turned {f : SlotId → Hw → Hw} (hf : turns h.id f) : turned f h (forSlots f h) :=
  ⟨(turns_others hf _).1, fun n => turns_each hf (List.nodup_finRange 32) (List.mem_finRange n)⟩

theorem forSlots_events {f : SlotId → Hw → Hw} (hf : turns h.id f) : (forSlots f h).cqu.events = h.cqu.events :=
  (turns_others hf _).2.1

theorem forSlots_notices {f : SlotId → Hw → Hw} (hf : turns h.id f) : (forSlots f h).cqu.notices = h.cqu.notices :=
  (turns_others hf _).2.2.1

theorem turned.before {f : SlotId → Hw → Hw} (hfr : WaitFrame e h) (hk : ∀ n, KeepsSlot n e h) (ht : turned f h t) :
    turned f e t := by
  refine ⟨hfr.trans ht.1, fun n => ?_⟩
  obtain ⟨g, hfg, hkg, hturn, hrest⟩ := ht.2 n
  exact ⟨g, hfr.trans hfg, (hk n).trans hkg, hturn, hrest⟩

theorem turned.after {f : SlotId → Hw → Hw} (ht : turned f h t) (hfr : WaitFrame t e) (hk : ∀ n, KeepsSlot n t e) :
    turned f h e := by
  refine ⟨ht.1.trans hfr, fun n => ?_⟩
  obtain ⟨g, hfg, hkg, hturn, hrest⟩ := ht.2 n
  exact ⟨g, hfg, hkg, hturn, hrest.trans (hk n)⟩

/-! ### The reservations after the turns (R81) -/

/-- Two entries of one slot on one lock are one. -/
theorem hold_unique {l : List (Nat × Hold)} (hl : holdTableLaw l) {e f : Nat × Hold} (he : e ∈ l) (hf : f ∈ l)
    (hs : f.2.slot = e.2.slot) (hk : f.2.lock = e.2.lock) : f = e := by
  have hnd : (l.map fun p => (p.2.slot, p.2.lock)).Nodup :=
    List.pairwise_map.mpr (hl.1.imp fun hlt he => hlt.2 (Prod.mk.injEq _ _ _ _ ▸ he))
  exact List.inj_on_of_nodup_map hnd hf he (by rw [hs, hk])

theorem findHold_of_mem {l : List (Nat × Hold)} (hl : holdTableLaw l) {e : Nat × Hold} (he : e ∈ l) :
    findHold e.2.slot e.2.lock l = some e.2 := by
  have hf : (l.find? fun p => p.2.slot = e.2.slot ∧ p.2.lock = e.2.lock) = some e :=
    find?_of_unique he (by simp) fun p hp hpk => by
      simp only [decide_eq_true_eq] at hpk
      exact hold_unique hl he hp hpk.1 hpk.2
  rw [findHold, hf]
  rfl

theorem mem_withoutReservation {l : List (Nat × Hold)} (hl : holdTableLaw l) {e : Nat × Hold} (he : e ∈ l)
    (hs : e.2.state ≠ .reserved) (n : SlotId) (k : LockId) : e ∈ withoutReservation n k l := by
  by_cases hn : e.2.slot = n ∧ e.2.lock = k
  · obtain ⟨rfl, rfl⟩ := hn
    rw [withoutReservation, findHold_of_mem hl he, if_neg]
    · exact he
    · simpa using hs
  · exact mem_withoutReservation_of_slot he hn

/-- Of an ended wait no entry is left that was a reservation. -/
theorem not_mem_withoutReservation {l : List (Nat × Hold)} (hl : holdTableLaw l) {e : Nat × Hold} (he : e ∈ l)
    (hs : e.2.state = .reserved) {f : Nat × Hold} (hf : f ∈ withoutReservation e.2.slot e.2.lock l) :
    ¬(f.2.slot = e.2.slot ∧ f.2.lock = e.2.lock) := by
  rw [withoutReservation, findHold_of_mem hl he, Option.map_some, if_pos (congrArg some hs)] at hf
  exact of_decide_eq_true (List.mem_filter.mp hf).2

variable {fn : SlotId → Hw → Hw}

theorem turned.sublist (ht : turned fn h t) : t.rqt.holds.Sublist h.rqt.holds := by
  obtain ⟨g, -, hkeep, hturn, hrest⟩ := ht.2 0
  exact (hrest.sublist.trans hturn.sublist).trans hkeep.sublist

theorem turned.gone (hl : holdTableLaw h.rqt.holds) (ht : turned fn h t) : reservationsGone h.rqt.holds t.rqt.holds := by
  refine ⟨ht.sublist, fun e he hs => ?_⟩
  obtain ⟨g, -, hkeep, hturn, hrest⟩ := ht.2 e.2.slot
  refine hrest.holds e ?_ rfl
  have heg := hkeep.holds e he rfl
  rcases hturn.settles with ⟨hh, -⟩ | ⟨-, -, o, -, hh⟩ <;> rw [hh]
  · exact heg
  · exact mem_withoutReservation (holdTableLaw_sublist hl hkeep.sublist) heg hs _ _

/-- The reservations of the waits that the turns ended are gone, and every other one stands. -/
theorem turned.settled {s u : State} (hl : holdTableLaw h.rqt.holds) (ht : turned fn h t)
    (hs : ∀ n, s.hw.rqt.slot n = h.rqt.slot n) (hu : ∀ n, u.hw.rqt.slot n = t.rqt.slot n)
    (hr : ∀ e ∈ s.hw.rqt.holds, e.2.state = .reserved → e ∈ h.rqt.holds) :
    reservationsSettled s u t.rqt.holds := by
  intro e he hres
  obtain ⟨g, -, hkeep, hturn, hrest⟩ := ht.2 e.2.slot
  have heg := hkeep.holds e (hr e he hres) rfl
  have hlg := holdTableLaw_sublist hl hkeep.sublist
  have hsg : s.hw.rqt.slot e.2.slot = g.rqt.slot e.2.slot := (hs _).trans hkeep.slot.symm
  have hut : u.hw.rqt.slot e.2.slot = (fn e.2.slot g).rqt.slot e.2.slot := (hu _).trans hrest.slot
  simp only [waitEnded, hsg, hut]
  rcases hturn.settles with ⟨hh, hd⟩ | ⟨hnd, hd, o, ho, hh⟩
  · exact ⟨fun hw => absurd (hd hw.2.1) hw.1, fun _ => hrest.holds e (hh ▸ heg) rfl⟩
  · refine ⟨fun ⟨_, _, o', ho', hlk⟩ f hf => ?_, fun hw => hrest.holds e ?_ rfl⟩
    · obtain rfl : o = o' := Option.some.inj (ho.symm.trans ho')
      have hf' := hrest.sublist.subset hf
      rw [hh, hlk] at hf'
      exact not_mem_withoutReservation hlg heg hres hf'
    · rw [hh]
      exact mem_withoutReservation_of_slot heg fun hc => hw ⟨hnd, hd, o, ho, hc.2.symm⟩

/-! ### The turns' steps -/

variable {o : Operation}

theorem endAcquire_turn (ho : (g.rqt.slot n).operation = some o) (hs : (g.rqt.slot n).state ≠ .done) {c : ResultCode}
    (hc : c ≠ .acquired) (d : ResultDetail) : SlotTurn n g (endAcquire n c d g) where
  frame := by constructor <;> simp
  events := by simp
  notices := by simp
  others := endOperation_others _ _ _ _ _
  entries := by simp
  answer := .inl (by simp)
  queue e he := by
    rw [endAcquire, endOperation_queue _ _ ho]
    exact List.mem_append_left _ he
  settles := .inr ⟨hs, by rw [endAcquire, endOperation_slot _ _ ho]; rfl, o, ho, endOperation_holds _ _ ho hc _ _⟩

theorem endAcquire_ended (ho : (g.rqt.slot n).operation = some o) (c : ResultCode) (d : ResultDetail) :
    (endAcquire n c d g).rqt.slot n = (g.rqt.slot n).ended
      ∧ .result n o.op o.lock o.mode c d ∈ (endAcquire n c d g).cqu.queue := by
  have hm : (g.slot n).operation.bind (·.mode) = o.mode := by rw [Hw.slot, ho]; rfl
  rw [endAcquire, hm, endOperation_slot _ _ ho, endOperation_queue _ _ ho]
  exact ⟨rfl, by simp⟩

theorem setSlot_turn {r : SlotRecord} (hs : r.state = .done → (g.rqt.slot n).state = .done) :
    SlotTurn n g (g.setSlot n r) where
  frame := by constructor <;> rfl
  events := rfl
  notices := rfl
  others := sameSlotsBut_setSlot _ _ _
  entries _ _ := Iff.rfl
  answer := .inl rfl
  queue _ he := he
  settles := .inl ⟨rfl, by rwa [slot_setSlot_same]⟩

/-- The slot's entries taken out of the normal list, before the rest of its turn. -/
theorem SlotTurn.removing (ht : SlotTurn n (removeNormal (isSlotEntry n) g) t) : SlotTurn n g t where
  frame := WaitFrame.trans (by constructor <;> rfl) ht.frame
  events := ht.events
  notices := ht.notices
  others := ht.others
  entries x hx := (ht.entries x hx).trans (by simp [removeNormal, hx])
  answer := ht.answer
  queue := ht.queue
  settles := ht.settles

/-- An entry of the slot placed in the normal list, after the rest of its turn. -/
theorem SlotTurn.placing (ht : SlotTurn n g t) {x : Transaction} (hx : isSlotEntry n x = true) :
    SlotTurn n g (placeNormal x t) where
  frame := ht.frame.trans (by constructor <;> rfl)
  events := ht.events
  notices := ht.notices
  others := ht.others
  entries y hy := by
    refine Iff.trans ?_ (ht.entries y hy)
    have hne : y ≠ x := by rintro rfl; rw [hx] at hy; cases hy
    simp [placeNormal, hne]
  answer := ht.answer
  queue := ht.queue
  settles := ht.settles

theorem isSlotEntry_slotTransaction {k : Kind} (hk : k.isSlot = true) (n : SlotId) (o : Operation) :
    isSlotEntry n (slotTransaction k n o) = true := by
  simp [isSlotEntry, slotTransaction, hk]

theorem Op.kind_isSlot (x : Op) : x.kind.isSlot = true := by cases x <;> rfl

/-- An operation issued again to another station's home. -/
theorem issueOperation_turn (ho : (g.rqt.slot n).operation = some o) (hh : homeOf o.lock ≠ g.id) :
    SlotTurn n g (issueOperation n g) := by
  rw [issueOperation_listed _ _ ho hh]
  exact (setSlot_turn (r := { g.rqt.slot n with state := .queuedOut }) nofun).placing
    (isSlotEntry_slotTransaction (Op.kind_isSlot _) _ _)

/-- The CANCEL of a slot at another station's home taken back (R86). -/
theorem removeCancel_turn (ho : (g.rqt.slot n).operation = some o) (hh : homeOf o.lock ≠ g.id)
    (hs : (g.rqt.slot n).state = .cancelling) : SlotTurn n g (removeCancel n g) := by
  have hna : (g.rqt.slot n).homedAt g.id = false := by rw [homedAt_eq ho]; simpa using hh
  cases hl : slotEntryListed n g with
  | true =>
    rw [removeCancel_found _ _ hna hl]
    exact (endAcquire_turn (g := removeNormal (isSlotEntry n) g) ho (by
      rw [show ((removeNormal (isSlotEntry n) g).rqt.slot n).state = _ from hs]; simp) (cancelResult_ne_acquired _)
      _).removing
  | false =>
    rw [removeCancel_onBus _ _ hna hl]
    exact setSlot_turn (r := { g.rqt.slot n with ending := true }) fun hd => hd

/-- The slot's operation has its home at `p`, and the slot is not aborted (R156). -/
def waitsAt (p : StationId) (r : SlotRecord) : Prop := r.aborted = false ∧ r.homedAt p = true

theorem waitsAt.operation (hw : waitsAt p (g.rqt.slot n)) :
    ∃ o, (g.rqt.slot n).operation = some o ∧ homeOf o.lock = p := by
  have hh := hw.2
  unfold SlotRecord.homedAt at hh
  split at hh
  · next o ho => exact ⟨o, ho, by simpa using hh⟩
  · cases hh

theorem waitsAt_guard : ((g.slot n).aborted = true ∨ ¬(g.slot n).homedAt p = true) ↔ ¬waitsAt p (g.rqt.slot n) := by
  simp only [waitsAt, Hw.slot, not_and_or, Bool.not_eq_false]

/-! ### A wait that fails, is issued again, or ends with an eviction -/

/-- The turn of a slot at home `p`: it waits, and `act` follows, or its CANCEL is taken back, or nothing happens. -/
def waitTurn (p : StationId) (act : SlotId → Hw → Hw) (n : SlotId) (g t : Hw) : Prop :=
  (waitsAt p (g.rqt.slot n) ∧ (g.rqt.slot n).state = .waiting ∧ t = act n g)
    ∨ (waitsAt p (g.rqt.slot n) ∧ (g.rqt.slot n).state = .cancelling ∧ t = removeCancel n g)
    ∨ (¬(waitsAt p (g.rqt.slot n) ∧ ((g.rqt.slot n).state = .waiting ∨ (g.rqt.slot n).state = .cancelling)) ∧ t = g)

theorem waitTurn.slotTurn {act : SlotId → Hw → Hw} (hp : p ≠ g.id) (hw : waitTurn p act n g t)
    (ha : ∀ o, (g.rqt.slot n).operation = some o → homeOf o.lock ≠ g.id → (g.rqt.slot n).state = .waiting →
      SlotTurn n g (act n g)) : SlotTurn n g t := by
  rcases hw with ⟨hat, hs, rfl⟩ | ⟨hat, hs, rfl⟩ | ⟨-, rfl⟩
  · obtain ⟨o, ho, hh⟩ := hat.operation
    exact ha o ho (hh ▸ hp) hs
  · obtain ⟨o, ho, hh⟩ := hat.operation
    exact removeCancel_turn ho (hh ▸ hp) hs
  · exact SlotTurn.refl n t

/-- A wait that ends with an eviction (R93). -/
def evictWait (n : SlotId) (g : Hw) : Hw := endAcquire n .homeEvicted .none g

/-- A wait that fails (R95): it ends, or its answer in flight is told. -/
def failWait (n : SlotId) (g : Hw) : Hw :=
  if acceptInFlight n g then { g with rqt := { g.rqt with answer := g.rqt.answer.map Answer.failed } }
  else endAcquire n .homeLost .none g

theorem evictSlot_turn (p : StationId) (n : SlotId) (g : Hw) : waitTurn p evictWait n g (evictSlot p n g) := by
  unfold evictSlot
  dsimp only
  split
  · next hc => exact .inr (.inr ⟨fun hw => waitsAt_guard.mp hc hw.1, rfl⟩)
  · next hc =>
    have hw := Classical.not_not.mp (mt waitsAt_guard.mpr hc)
    split
    · next hs => exact .inl ⟨hw, hs, rfl⟩
    · next hs => exact .inr (.inl ⟨hw, hs, rfl⟩)
    all_goals next hs => exact .inr (.inr ⟨by rw [show (g.rqt.slot n).state = _ from hs]; simp, rfl⟩)

theorem failSlot_turn (p : StationId) (n : SlotId) (g : Hw) : waitTurn p failWait n g (failSlot p n g) := by
  unfold failSlot
  dsimp only
  split
  · next hc => exact .inr (.inr ⟨fun hw => waitsAt_guard.mp hc hw.1, rfl⟩)
  · next hc =>
    have hw := Classical.not_not.mp (mt waitsAt_guard.mpr hc)
    split
    · next hs => exact .inl ⟨hw, hs, rfl⟩
    · next hs => exact .inr (.inl ⟨hw, hs, rfl⟩)
    all_goals next hs => exact .inr (.inr ⟨by rw [show (g.rqt.slot n).state = _ from hs]; simp, rfl⟩)

theorem reissueSlot_turn (p : StationId) (n : SlotId) (g : Hw) : waitTurn p issueOperation n g (reissueSlot p n g) := by
  unfold reissueSlot
  dsimp only
  split
  · next hc => exact .inr (.inr ⟨fun hw => waitsAt_guard.mp hc hw.1, rfl⟩)
  · next hc =>
    have hw := Classical.not_not.mp (mt waitsAt_guard.mpr hc)
    split
    · next hs => exact .inl ⟨hw, hs, rfl⟩
    · next hs => exact .inr (.inl ⟨hw, hs, rfl⟩)
    all_goals next hs => exact .inr (.inr ⟨by rw [show (g.rqt.slot n).state = _ from hs]; simp, rfl⟩)

theorem evictSlot_turns {own : StationId} (hp : p ≠ own) : turns own (evictSlot p) := fun n g hg =>
  (evictSlot_turn p n g).slotTurn (hg ▸ hp) fun _ ho _ hs => endAcquire_turn ho (by simp [hs]) (by decide) .none

theorem failWait_turn (ho : (g.rqt.slot n).operation = some o) (hs : (g.rqt.slot n).state = .waiting) :
    SlotTurn n g (failWait n g) := by
  unfold failWait
  split
  · exact ⟨by constructor <;> rfl, rfl, rfl, fun _ _ => rfl, fun _ _ => Iff.rfl, .inr rfl, fun _ he => he,
      .inl ⟨rfl, fun hd => hd⟩⟩
  · exact endAcquire_turn ho (by simp [hs]) (by decide) .none

theorem failSlot_turns {own : StationId} (hp : p ≠ own) : turns own (failSlot p) := fun n g hg =>
  (failSlot_turn p n g).slotTurn (hg ▸ hp) fun _ ho _ hs => failWait_turn ho hs

theorem reissueSlot_turns {own : StationId} (hp : p ≠ own) : turns own (reissueSlot p) := fun n g hg =>
  (reissueSlot_turn p n g).slotTurn (hg ▸ hp) fun _ ho hh _ => issueOperation_turn ho hh

/-! ### What the turns at a home do to its slots -/

/-- From `h` to `u` a command from `s` to `t` gives the slots their turns: what concerns the slots is else left
alone. -/
structure Between (s t : State) (h u : Hw) : Prop where
  id : h.id = s.hw.id
  slotsIn : ∀ n, s.hw.rqt.slot n = h.rqt.slot n
  normalIn : s.hw.lbc.normal = h.lbc.normal
  answerIn : s.hw.rqt.answer = h.rqt.answer
  slotsOut : ∀ n, t.hw.rqt.slot n = u.rqt.slot n
  normalOut : t.hw.lbc.normal = u.lbc.normal
  answerOut : t.hw.rqt.answer = u.rqt.answer
  queueOut : ∀ e ∈ u.cqu.queue, e ∈ t.hw.cqu.queue

variable {s v : State} {act : SlotId → Hw → Hw}

theorem listed_of_normal (hn : g.lbc.normal = t.lbc.normal) (n : SlotId) : slotEntryListed n g = slotEntryListed n t := by
  rw [slotEntryListed, slotEntryListed, hn]

/-- The turn of one slot between the two states. -/
theorem turned.turn (ht : turned fn h t) (hb : Between s v h t) (hw : ∀ n g, waitTurn p act n g (fn n g)) (n : SlotId) :
    ∃ g, g.id = s.hw.id ∧ g.rqt.slot n = s.hw.rqt.slot n ∧ slotEntryListed n g = slotEntryListed n s.hw
      ∧ answerKept s.hw g ∧ waitTurn p act n g (fn n g) ∧ v.hw.rqt.slot n = (fn n g).rqt.slot n
      ∧ slotEntryListed n v.hw = slotEntryListed n (fn n g) ∧ (∀ e ∈ (fn n g).cqu.queue, e ∈ v.hw.cqu.queue)
      ∧ (∀ x, isSlotEntry n x = true → (x ∈ v.hw.lbc.normal ↔ x ∈ (fn n g).lbc.normal)) ∧ answerKept (fn n g) v.hw := by
  obtain ⟨g, hfr, hkeep, -, hrest⟩ := ht.2 n
  refine ⟨g, hfr.id.trans hb.id, hkeep.slot.trans (hb.slotsIn n).symm, hkeep.listed.trans (listed_of_normal hb.normalIn n).symm,
    ?_, hw n g, (hb.slotsOut n).trans hrest.slot, (listed_of_normal hb.normalOut n).trans hrest.listed,
    fun e he => hb.queueOut e (hrest.queue e he), fun x hx => ?_, ?_⟩
  · rw [answerKept, hb.answerIn]
    exact hkeep.answer
  · rw [hb.normalOut]
    exact hrest.entries x hx
  · rw [answerKept, hb.answerOut]
    exact hrest.answer

theorem waitsAt_iff_onHome {q : Operation} (hq : (s.hw.rqt.slot n).operation = some q) :
    waitsAt p (s.hw.rqt.slot n) ↔ onHome s p n q := by
  rw [waitsAt, homedAt_eq hq, onHome, decide_eq_true_eq]
  exact ⟨fun ⟨ha, hh⟩ => ⟨ha, hq, hh⟩, fun ⟨ha, _, hh⟩ => ⟨ha, hh⟩⟩

/-- The slots not concerned are as they were (R156). -/
theorem turned.otherSlotsKept (ht : turned fn h t) (hb : Between s v h t) (hw : ∀ n g, waitTurn p act n g (fn n g)) :
    otherSlotsKept s v p := by
  intro n hn
  obtain ⟨g, -, hslot, -, -, hturn, hv, -⟩ := ht.turn hb hw n
  rw [hv]
  have hno : ¬(waitsAt p (s.hw.rqt.slot n)
      ∧ ((s.hw.rqt.slot n).state = .waiting ∨ (s.hw.rqt.slot n).state = .cancelling)) := by
    rintro ⟨⟨ha, hh⟩, hs⟩
    rcases hn with hn | hn | ⟨hn, hn'⟩
    · rw [ha] at hn; cases hn
    · rw [hh] at hn; cases hn
    · exact hs.elim hn hn'
  rw [waitTurn, hslot] at hturn
  rcases hturn with ⟨hat, hs, -⟩ | ⟨hat, hs, -⟩ | ⟨-, he⟩
  · exact absurd ⟨hat, .inl hs⟩ hno
  · exact absurd ⟨hat, .inr hs⟩ hno
  · rw [he, hslot]

theorem turned.waiting (ht : turned fn h t) (hb : Between s v h t) (hw : ∀ n g, waitTurn p act n g (fn n g))
    {q : Operation} (hq : onHome s p n q) (hs : (s.hw.rqt.slot n).state = .waiting) :
    ∃ g, g.id = s.hw.id ∧ g.rqt.slot n = s.hw.rqt.slot n ∧ answerKept s.hw g ∧ v.hw.rqt.slot n = (act n g).rqt.slot n
      ∧ (∀ e ∈ (act n g).cqu.queue, e ∈ v.hw.cqu.queue)
      ∧ (∀ x, isSlotEntry n x = true → (x ∈ v.hw.lbc.normal ↔ x ∈ (act n g).lbc.normal))
      ∧ answerKept (act n g) v.hw := by
  obtain ⟨g, hid, hslot, -, hans, hturn, hv, -, hqu, hen, hans'⟩ := ht.turn hb hw n
  have hat := (waitsAt_iff_onHome hq.2.1).mpr hq
  rw [waitTurn, hslot] at hturn
  rcases hturn with ⟨-, -, he⟩ | ⟨-, hc, -⟩ | ⟨hn, -⟩
  · rw [he] at hv hqu hen hans'
    exact ⟨g, hid, hslot, hans, hv, hqu, hen, hans'⟩
  · rw [hs] at hc; cases hc
  · exact absurd ⟨hat, .inl hs⟩ hn

theorem turned.cancelsRemoved (hp : p ≠ s.hw.id) (ht : turned fn h t) (hb : Between s v h t)
    (hw : ∀ n g, waitTurn p act n g (fn n g)) : cancelsRemoved s v p := by
  intro n q c hq hs hc
  obtain ⟨g, hid, hslot, hlist, -, hturn, hv, hlv, hqu, -, -⟩ := ht.turn hb hw n
  have hat := (waitsAt_iff_onHome hq.2.1).mpr hq
  have hqg : (g.rqt.slot n).operation = some q := hslot ▸ hq.2.1
  rw [waitTurn, hslot] at hturn
  rcases hturn with ⟨-, hc, -⟩ | ⟨-, -, he⟩ | ⟨hn, -⟩
  · rw [hs] at hc; cases hc
  · have hna : (g.rqt.slot n).homedAt g.id = false := by
      rw [homedAt_eq hqg, hid, hq.2.2]
      exact decide_eq_false hp
    rw [he] at hv hlv hqu
    refine ⟨fun hl => ?_, fun hl => ?_⟩
    · have hrec : endRecordedCancel n (removeNormal (isSlotEntry n) g) =
          endAcquire n c.result .none (removeNormal (isSlotEntry n) g) := by
        rw [endRecordedCancel_eq (removeNormal (isSlotEntry n) g) n (show (g.rqt.slot n).cause = some c from hslot ▸ hc),
          endCancelled, cancelResult_eq]
      rw [removeCancel_found _ _ hna (hlist.trans hl), hrec] at hv hlv hqu
      obtain ⟨hend, hres⟩ := endAcquire_ended (g := removeNormal (isSlotEntry n) g) hqg c.result .none
      refine ⟨⟨hv.trans (hend.trans (congrArg SlotRecord.ended hslot)), hqu _ hres⟩, hlv.trans ?_⟩
      simp [slotEntryListed, removeNormal]
    · rw [removeCancel_onBus _ _ hna (hlist.trans hl)] at hv
      rw [hv, slot_setSlot_same, hslot]
  · exact absurd ⟨hat, .inr hs⟩ hn

end Sys2Proof.Machine
end

section
/-! O48: a peer declared LOST (R95, R120, R137). -/

namespace Sys2Proof.Machine

variable {g h t : Hw} {n : SlotId} {p : StationId} {s v : State}

/-! ### The event and the waits, in either order (R98) -/

/-- The slots' turns and what follows them, with an event raised before or after them. -/
theorem inOrder_turned {f : SlotId → Hw → Hw} {w W : Hw → Hw} {b : Bool} {ev : Event}
    (ht : inOrder b (raiseEvent ev) W h = t) (hf : turns h.id f) (hW : ∀ g, W g = w (forSlots f g))
    (hw : ∀ g, (w g).cqu = g.cqu) :
    ∃ k u, (k = h ∨ k = raiseEvent ev h) ∧ u = forSlots f k ∧ turned f h u
      ∧ t.rqt = (w u).rqt ∧ t.lbc = (w u).lbc ∧ t.scu = (w u).scu ∧ t.htu = (w u).htu ∧ t.mbu = (w u).mbu
      ∧ t.port = (w u).port ∧ t.cqu.events = h.cqu.events.raise ev ∧ ∀ e ∈ u.cqu.queue, e ∈ t.cqu.queue := by
  subst ht
  cases b with
  | true =>
    have hf' : turns (raiseEvent ev h).id f := by rwa [(raiseEvent_waitFrame ev h).id]
    simp only [inOrder, if_true, hW]
    refine ⟨_, _, .inr rfl, rfl, (forSlots_turned hf').before (raiseEvent_waitFrame ev h) fun n =>
      raiseEvent_keepsSlot ev n h, rfl, rfl, rfl, rfl, rfl, rfl, ?_, fun e he => ?_⟩
    · rw [hw, forSlots_events hf', raiseEvent_events]
    · rwa [hw]
  | false =>
    simp only [inOrder, Bool.false_eq_true, if_false, hW]
    refine ⟨_, _, .inl rfl, rfl, forSlots_turned hf, ?_⟩
    simp only [raiseEvent_rqt, raiseEvent_lbc, raiseEvent_scu, raiseEvent_htu, raiseEvent_mbu, raiseEvent_port,
      raiseEvent_events, hw, forSlots_events hf, true_and]
    intro e he
    exact (raiseEvent_keepsSlot ev 0 (w (forSlots f h))).queue e (by rwa [hw])

/-! ### The answer in flight -/

theorem turns_untold {f : SlotId → Hw → Hw} (hf : turns h.id f) {l : List SlotId} (hl : l.Nodup)
    (hn : ∀ n g, g.id = h.id → KeepsSlot n h g → (f n g).rqt.answer = g.rqt.answer) :
    (l.foldl (fun g k => f k g) h).rqt.answer = h.rqt.answer := by
  suffices hgen : ∀ g, g.id = h.id → (∀ m ∈ l, KeepsSlot m h g) →
      (l.foldl (fun g k => f k g) g).rqt.answer = g.rqt.answer from hgen h rfl fun m _ => KeepsSlot.refl m h
  induction l with
  | nil => exact fun _ _ _ => rfl
  | cons k l ih =>
    obtain ⟨hk, hl⟩ := List.nodup_cons.mp hl
    intro g hg hkeep
    have ht := hf k g hg
    refine (ih hl (f k g) (ht.frame.id.trans hg) fun m hm => ?_).trans (hn k g hg (hkeep k List.mem_cons_self))
    exact (hkeep m (List.mem_cons_of_mem _ hm)).trans (ht.keeps fun he => hk (he ▸ hm))

/-- No slot's turn has told the answer in flight. -/
theorem forSlots_untold {f : SlotId → Hw → Hw} (hf : turns h.id f)
    (hn : ∀ n g, g.id = h.id → KeepsSlot n h g → (f n g).rqt.answer = g.rqt.answer) :
    (forSlots f h).rqt.answer = h.rqt.answer := turns_untold hf (List.nodup_finRange 32) hn

theorem removeCancel_answer (n : SlotId) (g : Hw) : (removeCancel n g).rqt.answer = g.rqt.answer := by
  unfold removeCancel
  split
  · rfl
  · split
    · simp [removeNormal]
    · rfl

theorem failSlot_untold (hn : ∀ q, onHome s p n q → (s.hw.rqt.slot n).state = .waiting → acceptInFlight n s.hw = false)
    (hs : g.rqt.slot n = s.hw.rqt.slot n) (ha : acceptInFlight n g = acceptInFlight n s.hw) :
    (failSlot p n g).rqt.answer = g.rqt.answer := by
  rcases failSlot_turn p n g with ⟨hat, hw, he⟩ | ⟨-, -, he⟩ | ⟨-, he⟩ <;> rw [he]
  · rw [hs] at hat hw
    obtain ⟨o, ho, -⟩ := hat.operation
    have hno := hn o ((waitsAt_iff_onHome ho).mp hat) hw
    rw [failWait, ha, hno, if_neg Bool.false_ne_true, endAcquire_rqt_answer]
  · exact removeCancel_answer n g

/-! ### The waits fail (R95) -/

theorem failWait_ends {q : Operation} (hq : (g.rqt.slot n).operation = some q) (ha : acceptInFlight n g = false) :
    (failWait n g).rqt.slot n = (g.rqt.slot n).ended
      ∧ .result n q.op q.lock q.mode .homeLost .none ∈ (failWait n g).cqu.queue := by
  rw [failWait, ha, if_neg Bool.false_ne_true]
  exact endAcquire_ended hq _ _

/-- The waits on the peer's locks have failed. -/
theorem turned.waitsFailed (hp : p ≠ s.hw.id) (ht : turned (failSlot p) h t) (hb : Between s v h t)
    (hu : (∀ n q, onHome s p n q → (s.hw.rqt.slot n).state = .waiting → acceptInFlight n s.hw = false) →
      t.rqt.answer = h.rqt.answer) : waitsFailed s v p := by
  refine ⟨fun n q hq hs => ⟨fun ha => ?_, fun ha => ?_⟩, ht.cancelsRemoved hp hb fun n g => failSlot_turn p n g,
    fun hno => hb.answerOut.trans ((hu hno).trans hb.answerIn.symm)⟩
  · obtain ⟨g, -, hslot, hans, hv, hqu, -, -⟩ := ht.waiting hb (fun n g => failSlot_turn p n g) hq hs
    obtain ⟨hend, hres⟩ := failWait_ends (g := g) (hslot ▸ hq.2.1) ((hans.inFlight n).trans ha)
    exact ⟨hv.trans (hend.trans (congrArg SlotRecord.ended hslot)), hqu _ hres⟩
  · obtain ⟨g, -, hslot, hans, hv, -, -, hans'⟩ := ht.waiting hb (fun n g => failSlot_turn p n g) hq hs
    have hf : failWait n g = { g with rqt := { g.rqt with answer := g.rqt.answer.map Answer.failed } } :=
      if_pos ((hans.inFlight n).trans ha)
    rw [hf] at hv hans'
    refine ⟨hv.trans hslot, ?_⟩
    have hidem : (s.hw.rqt.answer.map Answer.failed).map Answer.failed = s.hw.rqt.answer.map Answer.failed := by
      rw [Option.map_map]; rfl
    rcases hans with ha' | ha' <;> rcases hans' with hv' | hv' <;> simp only [ha', hidem] at hv' <;> exact hv'

/-! ### An awaited station gone (R137) -/

theorem received_awaited (c : Claim) (a : Htu) : (received c a).awaited = a.awaited := by
  unfold received; split <;> rfl

theorem unawait_rest (p : StationId) (h : Hw) : (unawait p h).rqt = h.rqt ∧ (unawait p h).lbc = h.lbc
    ∧ (unawait p h).mbu = h.mbu ∧ (unawait p h).port = h.port ∧ (unawait p h).id = h.id := by
  unfold unawait
  split
  · dsimp only
    split
    · simp [Hw.id]
    · exact ⟨rfl, rfl, rfl, rfl, rfl⟩
  · exact ⟨rfl, rfl, rfl, rfl, rfl⟩

theorem unawait_queue (p : StationId) (h : Hw) : ∀ e ∈ h.cqu.queue, e ∈ (unawait p h).cqu.queue := by
  intro e he
  unfold unawait
  split
  · dsimp only
    split
    · exact (raiseEvent_keepsSlot _ 0 _).queue e he
    · exact he
  · exact he

theorem raise_online (E : EventSet) (ev : Event) : (E.raise .online).raise ev = { E.raise ev with online := true } := by
  cases ev <;> rfl

theorem unawait_station (p : StationId) (h : Hw) (hp : h.scu.station.present = true) :
    (unawait p h).scu.station.present = true := by
  unfold unawait
  split
  · dsimp only
    split
    · simp [StationState.present]
    · exact hp
  · exact hp

/-- The home, the station and the events after a delivery that takes a station out of the awaited set. -/
theorem unawaited_of {ev : Event} (hs : h.scu = s.hw.scu) (ha : h.htu.awaited = s.hw.htu.awaited)
    (he : h.cqu.events = s.hw.cqu.events) (ht : v.hw.htu = (unawait p h).htu) (hv : v.hw.scu = (unawait p h).scu)
    (hev : v.hw.cqu.events = (unawait p h).cqu.events.raise ev) :
    unawaited s v p h.htu (s.hw.cqu.events.raise ev) := by
  have hh : h.home = s.hw.home := congrArg (·.station.home) hs
  have hleft : h.htu.awaited &&& ~~~(stationBit p) = s.hw.htu.awaited &&& ~~~(BitVec.twoPow 16 p.val) := by
    rw [ha]; rfl
  refine ⟨fun hn => ?_, fun hw hl => ?_, fun hw hl => ?_⟩
  · have hun : unawait p h = h := if_neg (by rw [hh, ha]; exact hn)
    rw [hun] at ht hv hev
    exact ⟨ht, hv.trans hs, hev.trans (congrArg (EventSet.raise ev) he)⟩
  · have hun : unawait p h = h.setHtu { h.htu with awaited := h.htu.awaited &&& ~~~(stationBit p) } := by
      rw [unawait, if_pos (by rw [hh, ha]; exact hw)]
      exact if_neg (by rw [hleft]; exact hl)
    rw [hun] at ht hv hev
    exact ⟨ht.trans (by rw [hleft]; rfl), hv.trans hs, hev.trans (congrArg (EventSet.raise ev) he)⟩
  · have hun : unawait p h = raiseEvent .online
        { h with htu := { h.htu with awaited := 0, rebuildTimer := none }, scu := { h.scu with station := .online } } := by
      rw [unawait, if_pos (by rw [hh, ha]; exact hw)]
      exact if_pos (by rw [hleft]; exact hl)
    rw [hun] at ht hv hev
    refine ⟨ht.trans (raiseEvent_htu _ _), hv.trans ((raiseEvent_scu _ _).trans (by rw [hs])), hev.trans ?_⟩
    rw [raiseEvent_events, raise_online, he]

/-! ### O48: a peer declared LOST (R120) -/

/-- The home told that a peer is gone: the purge cause, and the end of its place in the awaited set. -/
def peerGone (p : StationId) (evict : Bool) (h : Hw) : Hw := unawait p (deliverPurgeCause p evict h)

/-- The home as `peerGone` finds it, with the purge cause received. -/
theorem peerGone_eq (hs : h.home ≠ .inactive) (e : Bool) :
    peerGone p e h = unawait p (h.setHtu (received (.purgeCause p e) h.htu)) := by
  rw [peerGone, deliverPurgeCause_serving hs]
  rfl

theorem peerGone_rest (hs : h.home ≠ .inactive) (e : Bool) : (peerGone p e h).rqt = h.rqt ∧ (peerGone p e h).lbc = h.lbc
    ∧ (peerGone p e h).mbu = h.mbu ∧ (peerGone p e h).port = h.port ∧ (peerGone p e h).id = h.id := by
  rw [peerGone_eq hs]
  exact unawait_rest _ _

theorem setMember_same (p : StationId) (m : Member) (h : Hw) : (h.setMember p m).mbu.member p = m := by
  simp [Hw.setMember, Mbu.setMember, Mbu.member, get_eq_getElem]

theorem setMember_ne {v : StationId} (hv : v ≠ p) (m : Member) (h : Hw) :
    (h.setMember p m).mbu.member v = h.mbu.member v := by
  have hne : p.val ≠ v.val := fun he => hv (Fin.ext he.symm)
  simp [Hw.setMember, Mbu.setMember, Mbu.member, get_eq_getElem, hne]

theorem exec_silenceTimerExpiry (p : StationId) (ef : Bool) :
    exec (.silenceTimerExpiry p ef) s = .next { s with hw := silenceExpiry p ef s.hw } := rfl

theorem comesTogether_of_completion {r : TxRecord} (hr : h.lbc.record = some r) (hw : r.winner = p)
    (hc : r.phase = .completion) : comesTogether p h = true := by
  simp [comesTogether, hr, hw, hc]

/-- What a station that learns that a peer is gone does: its home is told, and its waits on the peer's locks have their
turns of `f`, which `w` follows. -/
theorem peerGone_told {f : SlotId → Hw → Hw} {w W : Hw → Hw} {b e : Bool} {ev : Event}
    (ht : inOrder b (raiseEvent ev) W (peerGone p e h) = t) (hr : h.rqt = s.hw.rqt)
    (hn : h.lbc.normal = s.hw.lbc.normal) (hs : h.scu = s.hw.scu) (hh : h.htu = s.hw.htu)
    (hc : h.cqu.events = s.hw.cqu.events) (hhome : s.hw.home ≠ .inactive) (hf : turns s.hw.id f)
    (hW : ∀ g, W g = w (forSlots f g)) (hcqu : ∀ g, (w g).cqu = g.cqu) (hw : ∀ g, walkOnly g (w g)) :
    ∃ k u, (k = peerGone p e h ∨ k = raiseEvent ev (peerGone p e h)) ∧ u = forSlots f k ∧ turned f (peerGone p e h) u
      ∧ Between s { s with hw := t } (peerGone p e h) u
      ∧ unawaited s { s with hw := t } p (received (.purgeCause p e) s.hw.htu) (s.hw.cqu.events.raise ev)
      ∧ t.rqt = (w u).rqt ∧ t.lbc = (w u).lbc ∧ t.scu = (peerGone p e h).scu ∧ t.mbu = h.mbu ∧ t.port = h.port := by
  have hhome' : h.home ≠ .inactive := by rw [Hw.home, hs]; exact hhome
  obtain ⟨hgr, hgl, hgm, hgp, hgi⟩ := peerGone_rest (p := p) hhome' e
  have hid : (peerGone p e h).id = s.hw.id := hgi.trans (congrArg Scu.id hs)
  obtain ⟨k, u, hk, hu, hturned, hrqt, hlbc, hscu, hhtu, hmbu, hport, hev, hqu⟩ :=
    inOrder_turned ht (by rw [hid]; exact hf) hW hcqu
  obtain ⟨hwslots, hwans, -, -, hwnormal, hwhtu, ⟨⟨hwscu, hwmbu, hwport⟩, -, -⟩⟩ := hw u
  have hfr := hturned.1
  have hslot (n : SlotId) : t.rqt.slot n = u.rqt.slot n := by
    rw [hrqt, Rqt.slot, Rqt.slot, hwslots]
  refine ⟨k, u, hk, hu, hturned, ⟨hid, fun n => by rw [hgr, hr], by rw [hgl, hn], by rw [hgr, hr], hslot, ?_, ?_, hqu⟩,
    ?_, hrqt, hlbc, hscu.trans (hwscu.trans hfr.scu), hmbu.trans (hwmbu.trans (hfr.mbu.trans hgm)),
    hport.trans (hwport.trans (hfr.port.trans hgp))⟩
  · exact (congrArg Lbc.normal hlbc).trans hwnormal
  · exact (congrArg Rqt.answer hrqt).trans hwans
  · have heq := peerGone_eq (p := p) hhome' e
    rw [← hh]
    exact unawaited_of (h := h.setHtu (received (.purgeCause p e) h.htu)) hs
      ((received_awaited _ _).trans (congrArg Htu.awaited hh)) hc
      (hhtu.trans (hwhtu.trans (hfr.htu.trans (congrArg Hw.htu heq))))
      (hscu.trans (hwscu.trans (hfr.scu.trans (congrArg Hw.scu heq))))
      (hev.trans (congrArg (fun g : Hw => g.cqu.events.raise ev) heq))

/-- No answer in flight was told, as no wait that it accepts fails. -/
theorem failWaits_untold {k : Hw} {ev : Event} (hp : p ≠ s.hw.id) (hid : h.id = s.hw.id) (hr : h.rqt = s.hw.rqt)
    (hk : k = h ∨ k = raiseEvent ev h)
    (hno : ∀ n q, onHome s p n q → (s.hw.rqt.slot n).state = .waiting → acceptInFlight n s.hw = false) :
    (forSlots (failSlot p) k).rqt.answer = h.rqt.answer := by
  have hkr : k.rqt = h.rqt := by
    rcases hk with rfl | rfl
    · rfl
    · exact raiseEvent_rqt h ev
  have hki : k.id = s.hw.id := by
    rcases hk with rfl | rfl
    · exact hid
    · exact (raiseEvent_waitFrame ev h).id.trans hid
  refine (forSlots_untold (hki ▸ failSlot_turns hp) fun n g _ hkeep => ?_).trans (congrArg Rqt.answer hkr)
  have hslot : g.rqt.slot n = s.hw.rqt.slot n := hkeep.slot.trans (by rw [hkr, hr])
  have hacc : acceptInFlight n g = acceptInFlight n s.hw :=
    (hkeep.answer.inFlight n).trans (by rw [acceptInFlight, acceptInFlight, hkr, hr])
  exact failSlot_untold (hno n) hslot hacc

theorem declareLost_eq (ef : Bool) : declareLost p ef h =
    inOrder ef (raiseEvent (.peerLost p)) (failWaits p) (peerGone p true (h.setMember p ⟨.lost, none⟩)) := rfl

theorem failWaits_eq (p : StationId) (g : Hw) : failWaits p g = id (forSlots (failSlot p) g) := by
  rw [failWaits, id]

/-- Settles O48: the waits turn by turn, and the home, the station and the events by the awaited set. -/
theorem silenceDeclaresLost : Obligations.SilenceDeclaresLost := by
  intro s p ef
  refine ⟨fun ht => ?_, fun k hk hpos hpres hp hhome hheld hlaw => ?_⟩
  · rw [exec_silenceTimerExpiry, silenceExpiry_sighted _ ef ht]
  intro home left awaits
  have hdue : silenceHeld p s.hw = false ∨ comesTogether p s.hw = true :=
    hheld.imp_right fun ⟨_, hr, hw, hc⟩ => comesTogether_of_completion hr hw hc
  rw [exec_silenceTimerExpiry, silenceExpiry_declares _ ef hk hpos hpres hdue, declareLost_eq]
  generalize hlost : s.hw.setMember p ⟨.lost, none⟩ = lost
  generalize ht : inOrder ef (raiseEvent (.peerLost p)) (failWaits p) (peerGone p true lost) = t
  subst hlost
  obtain ⟨hgr, hgl, -, -, hgi⟩ := peerGone_rest (p := p) (h := s.hw.setMember p ⟨.lost, none⟩) hhome true
  obtain ⟨k', u, hk', hu, hturned, hb, hun, hrqt, hlbc, -, hmbu, hport⟩ :=
    peerGone_told (f := failSlot p) (w := id) ht rfl rfl rfl rfl rfl hhome (failSlot_turns hp) (failWaits_eq p)
      (fun _ => rfl) walkOnly.refl
  have hfr := hturned.1
  have hlaw' : holdTableLaw (peerGone p true (s.hw.setMember p ⟨.lost, none⟩)).rqt.holds := by rw [hgr]; exact hlaw
  have hholds : t.rqt.holds = u.rqt.holds := congrArg Rqt.holds hrqt
  refine ⟨_, rfl, ?_, fun v hv => ?_, ?_, ?_, hun.1, hun.2.1, hun.2.2,
    hturned.waitsFailed hp hb fun hno => hu ▸ failWaits_untold hp hgi hgr hk' hno,
    hturned.otherSlotsKept hb fun n g => failSlot_turn p n g, fun e he hs => ?_, ?_, ?_, ?_, ?_, ?_, ?_, ?_, ?_, hport⟩
  · rw [show t.mbu = _ from hmbu]
    exact setMember_same _ _ _
  · rw [show t.mbu = _ from hmbu]
    exact setMember_ne hv _ _
  · exact (congrArg Mbu.beaconTimer hmbu).trans rfl
  · exact (congrArg Mbu.wonMark hmbu).trans rfl
  · rw [show t.rqt.holds = _ from hholds]
    exact (hturned.gone hlaw').2 e (by rw [hgr]; exact he) hs
  · rw [show t.rqt.holds = _ from hholds]
    exact hturned.settled hlaw' hb.slotsIn hb.slotsOut fun e he _ => by rw [hgr]; exact he
  · exact (congrArg Rqt.waitLimits hrqt).trans (hfr.waitLimits.trans (congrArg Rqt.waitLimits hgr))
  · exact (congrArg Rqt.homes hrqt).trans (hfr.homes.trans (congrArg Rqt.homes hgr))
  · exact (congrArg Rqt.phase hrqt).trans (hfr.phase.trans (congrArg Rqt.phase hgr))
  · exact (congrArg Rqt.outstanding hrqt).trans (hfr.outstanding.trans (congrArg Rqt.outstanding hgr))
  · exact (congrArg Rqt.responses hrqt).trans (hfr.responses.trans (congrArg Rqt.responses hgr))
  · exact (congrArg Lbc.priority hlbc).trans (hfr.priority.trans (congrArg Lbc.priority hgl))
  · exact (congrArg Lbc.record hlbc).trans (hfr.record.trans (congrArg Lbc.record hgl))

end Sys2Proof.Machine
end

section
/-! O55: a peer's JOIN, PURGE and LEAVE, observed (R95, R96, R122, R136, R142, R143, R145, R150, R161). -/

namespace Sys2Proof.Machine

variable {g h t : Hw} {n : SlotId} {p : StationId} {s : State} {r : TxRecord} {x : Transaction} {o : Lines}

/-! ### The walker's list (R142, R145) -/

theorem removePriority_reasserts (p : StationId) (h : Hw) :
    (removePriority (isReassertTo p) h).lbc.priority = withoutReasserts p h.lbc.priority :=
  List.filter_congr fun x _ => by simp [isReassertTo, imp_iff_not_or, Bool.not_and]

theorem countP_reasserts (p : StationId) (l : List Transaction) : l.countP (isReassertTo p) = reassertsListed p l :=
  List.countP_congr fun x _ => by simp [isReassertTo]

/-- A home added to an empty list: its walk begins. -/
theorem walkerAdd_first (hh : h.rqt.homes = []) : (walkerAdd p h).rqt.homes = [p]
    ∧ ∃ new, walkBegun (walkerAdd p h) new
      ∧ walkerPlaced h.rqt.holds h.lbc.priority h.rqt.outstanding (walkerAdd p h) new := by
  generalize hg : { h with rqt := h.rqt.restartWalk [p] h.rqt.outstanding } = g
  have hadd : walkerAdd p h = walkerAct g := by rw [walkerAdd, hh]; exact congrArg walkerAct hg
  obtain ⟨new, hgo, hplaced⟩ := walkerAct_placed g
  rw [hadd]
  exact ⟨by rw [walkerAct_rqt_homes, ← hg]; rfl, new, hgo.1 (by rw [← hg]; rfl), by rw [← hg] at hplaced ⊢; exact hplaced⟩

/-- The head of the list added: its walk starts again. -/
theorem walkerAdd_head {rest : List StationId} (hh : h.rqt.homes = p :: rest) :
    (walkerAdd p h).rqt.homes = h.rqt.homes ∧ ∃ new, walkBegun (walkerAdd p h) new
      ∧ walkerPlaced (clearMarks p h.rqt.holds) (withoutReasserts p h.lbc.priority)
          (h.rqt.outstanding - reassertsListed p h.lbc.priority) (walkerAdd p h) new := by
  generalize hg : { removePriority (isReassertTo p) h with
    rqt := ({ h.rqt with holds := clearMarks p h.rqt.holds }).restartWalk h.rqt.homes
      (h.rqt.outstanding - h.lbc.priority.countP (isReassertTo p)) } = g
  have hadd : walkerAdd p h = walkerAct g := by
    rw [walkerAdd, ← hg]
    simp only [hh, if_true]
  obtain ⟨new, hgo, hplaced⟩ := walkerAct_placed g
  have hphase : g.rqt.phase = some .sending := by
    rw [← hg]
    exact if_neg (by simp [hh])
  rw [hadd]
  refine ⟨by rw [walkerAct_rqt_homes, ← hg]; rfl, new, hgo.1 hphase, ?_⟩
  rw [← removePriority_reasserts, ← countP_reasserts]
  rw [← hg] at hplaced ⊢
  exact hplaced

/-- A home added behind another: at the tail, unless it is in the list. -/
theorem walkerAdd_later {q : StationId} {rest : List StationId} (hh : h.rqt.homes = q :: rest) (hq : q ≠ p) :
    walkerAdd p h = { h with rqt := { h.rqt with
      homes := if p ∈ h.rqt.homes then h.rqt.homes else h.rqt.homes ++ [p] } } := by
  rw [walkerAdd, hh]
  simp only [if_neg hq]
  split
  · rw [← hh]
  · rfl

theorem walkerAdd_walkOnly (p : StationId) (h : Hw) : walkOnly h (walkerAdd p h) := by
  unfold walkerAdd
  split
  · exact walkOnly.trans (walkOnly.refl h) (walkerAct_walkOnly _)
  · split
    · refine walkOnly.trans ?_ (walkerAct_walkOnly _)
      exact ⟨rfl, rfl, rfl, rfl, rfl, rfl, .of_fields rfl rfl rfl rfl rfl⟩
    · split
      · exact walkOnly.refl h
      · exact walkOnly.refl h

/-- A home that is not the head dropped: its place goes, and nothing else. -/
theorem walkerDrop_later (hh : h.rqt.homes.head? ≠ some p) :
    walkerDrop p h = { h with rqt := { h.rqt with homes := h.rqt.homes.erase p } } := by
  unfold walkerDrop
  split
  · next hn =>
    have he : h.rqt.homes.erase p = h.rqt.homes := by rw [hn]; rfl
    rw [he]
  · next q rest hq => exact if_neg fun he => hh (by rw [hq, he]; rfl)

/-- The head dropped: its REASSERTs listed go, and the next home is walked (R145). -/
theorem walkerDrop_head {rest : List StationId} (hh : h.rqt.homes = p :: rest) :
    (walkerDrop p h).rqt.homes = rest ∧ (rest = [] → (walkerDrop p h).rqt.phase = none)
      ∧ ∃ new, (rest ≠ [] → walkBegun (walkerDrop p h) new)
        ∧ walkerPlaced (clearMarks p h.rqt.holds) (withoutReasserts p h.lbc.priority) 0 (walkerDrop p h) new := by
  have hdrop : walkerDrop p h = walkerFinish p (removePriority (isReassertTo p) h) := by
    rw [walkerDrop, hh]
    exact if_pos rfl
  rw [hdrop, ← removePriority_reasserts]
  exact walkerFinish_finished (h := removePriority (isReassertTo p) h) hh

theorem unmarked_clearMarks (p : StationId) (l : List (Nat × Hold)) : unmarked (clearMarks p l) = unmarked l := by
  rw [unmarked, unmarked, clearMarks, List.map_map]
  refine List.map_congr_left fun e _ => ?_
  simp only [Function.comp_apply]
  split <;> rfl

/-- An entry of one table stands in another, its mark apart, where the two are the same but for their marks. -/
theorem mem_of_unmarked {l l' : List (Nat × Hold)} (hu : unmarked l' = unmarked l) {e : Nat × Hold} (he : e ∈ l) :
    ∃ e' ∈ l', e' = (e.1, { e.2 with mark := e'.2.mark }) := by
  have hm : (e.1, { e.2 with mark := false }) ∈ unmarked l' := hu ▸ List.mem_map_of_mem he
  obtain ⟨e', he', heq⟩ := List.mem_map.mp hm
  obtain ⟨h1, h2⟩ := Prod.mk.inj heq
  refine ⟨e', he', Prod.ext h1 ?_⟩
  obtain ⟨_, ⟨⟩⟩ := e'
  obtain ⟨_, ⟨⟩⟩ := e
  simp_all

/-! ### What the completions bring (R39, R136, R150) -/

theorem peerSeen_member (hs : h.scu.station.present = true) : (peerSeen p h).mbu.member p = ⟨.present, some 0⟩ := by
  rw [peerSeen, hs]
  exact setMember_same p ⟨.present, some 0⟩ h

/-- A JOIN whose source is in its own presence set has no effect but the sighting. -/
theorem peerJoined_seen {j : BitVec 16} (hj : j.getLsbD p.val = true) (ef : Bool) : peerJoined p j ef h = h :=
  if_neg fun hn => hn.2.2 hj

theorem peerJoined_eq {j : BitVec 16} (hs : h.scu.station.present = true) (hp : p ≠ h.id) (hj : j.getLsbD p.val = false)
    (ef : Bool) : peerJoined p j ef h = inOrder ef (raiseEvent (.peerJoined p))
      (fun g => walkerAdd p (reissueWaits p g)) (peerGone p false h) :=
  if_pos ⟨hs, hp, by rw [hj]; exact Bool.false_ne_true⟩

theorem peerLeft_eq (hs : h.scu.station.present = true) (hp : p ≠ h.id) (ef : Bool) :
    peerLeft p ef h = inOrder ef (raiseEvent (.peerLeft p)) (fun g => walkerDrop p (failWaits p g))
      (peerGone p false h) :=
  if_pos ⟨hs, hp⟩

/-- The station as the deliveries of a peer's LEAVE find it: the record closed and the peer's record ABSENT (R122). -/
def peerUnseen (w : StationId) (h : Hw) : Hw :=
  { h with lbc := { h.lbc with record := none }, mbu := h.mbu.setMember w ⟨.absent, none⟩ }

theorem exec_peerLeave (hc : peerCompletion s r x) (hk : x.kind = .leave) (hv : ¬voided r o) (ef : Bool) :
    exec (.completion o ef) s = .next { s with hw := peerLeft r.winner ef (peerUnseen r.winner s.hw) } := by
  obtain ⟨hat, hrole, hw, hx⟩ := hc
  have hout : outcomeAt r o = .complete := outcomeAt_complete hx (by rw [hk]; rfl) hv
  have hm : membershipCompleted r .complete (closeRecord s.hw) = peerUnseen r.winner s.hw := by
    simp only [membershipCompleted, hx, hk]
    rw [if_pos ⟨trivial, trivial, hw⟩]
    exact if_neg hw
  rw [exec_completion hat, hout, hm]
  simp only [deliver, hrole, hx, observerCompleted, hk]
  rfl

theorem exec_peerJoin {j : BitVec 16} (hc : peerCompletion s r x) (hk : x.kind = .join) (hv : ¬voided r o)
    (hj : r.presence = some j) (ef : Bool) :
    exec (.completion o ef) s = .next { s with hw := peerJoined r.winner j ef (peerSeen r.winner s.hw) } := by
  have hout : outcomeAt r o = .complete := outcomeAt_complete hc.2.2.2 (by rw [hk]; rfl) hv
  rw [exec_peerCompletion hc (by simp [hk]) (by rw [hout]; nofun)]
  simp only [observerCompleted, hk, hj, Option.getD_some]

theorem exec_peerPurge (hc : peerCompletion s r x) (hk : x.kind = .purge) (hv : ¬voided r o) (ef : Bool) :
    exec (.completion o ef) s = .next { s with hw := deliverPurgeCause r.winner false (peerSeen r.winner s.hw) } := by
  have hout : outcomeAt r o = .complete := outcomeAt_complete hc.2.2.2 (by rw [hk]; rfl) hv
  rw [exec_peerCompletion hc (by simp [hk]) (by rw [hout]; nofun)]
  simp only [observerCompleted, hk]

/-! ### The walk after the waits (R142, R143, R145) -/

variable {u : Hw}

theorem walkBegun_congr (hr : t.rqt = g.rqt) {new : List Transaction} (hb : walkBegun g new) : walkBegun t new := by
  rw [walkBegun, hr]
  exact hb

/-- The walk after a JOIN: begun for an only home, begun again for the head, and else left alone. -/
theorem joined_walk (hr : t.rqt = (walkerAdd p u).rqt) (hl : t.lbc = (walkerAdd p u).lbc) (hs : t.scu = u.scu) :
    t.rqt.homes = (if p ∈ u.rqt.homes then u.rqt.homes else u.rqt.homes ++ [p])
      ∧ ∃ new, (u.rqt.homes = [] → walkBegun t new
          ∧ walkerPlaced u.rqt.holds u.lbc.priority u.rqt.outstanding t new)
        ∧ (u.rqt.homes.head? = some p → walkBegun t new
          ∧ walkerPlaced (clearMarks p u.rqt.holds) (withoutReasserts p u.lbc.priority)
              (u.rqt.outstanding - reassertsListed p u.lbc.priority) t new)
        ∧ (u.rqt.homes ≠ [] → u.rqt.homes.head? ≠ some p → sameWalkBut u t ∧ t.rqt.holds = u.rqt.holds) := by
  have hscu : t.scu = (walkerAdd p u).scu := hs.trans (walkerAdd_walkOnly p u).2.2.2.2.2.2.1.1.symm
  have hpri : t.lbc.priority = (walkerAdd p u).lbc.priority := congrArg Lbc.priority hl
  cases hh : u.rqt.homes with
  | nil =>
    obtain ⟨hhomes, new, hbegun, hplaced⟩ := walkerAdd_first (p := p) hh
    refine ⟨(congrArg Rqt.homes hr).trans hhomes, new, fun _ => ⟨walkBegun_congr hr hbegun,
      walkerPlaced_congr hr hscu hpri hplaced⟩, nofun, fun hn => absurd rfl hn⟩
  | cons q rest =>
    by_cases hq : q = p
    · subst hq
      obtain ⟨hhomes, new, hbegun, hplaced⟩ := walkerAdd_head hh
      refine ⟨(congrArg Rqt.homes hr).trans (hhomes.trans (by rw [hh]; simp)), new, nofun, fun _ =>
        ⟨walkBegun_congr hr hbegun, walkerPlaced_congr hr hscu hpri hplaced⟩, fun _ hn => absurd rfl hn⟩
    · have hadd := walkerAdd_later hh hq
      rw [hadd] at hr hl
      exact ⟨(congrArg Rqt.homes hr).trans (by rw [← hh]), [], nofun, fun hn => absurd (Option.some.inj hn) hq,
        fun _ _ => ⟨⟨by rw [hr], by rw [hr], by rw [hl]⟩, by rw [hr]⟩⟩

/-- The walk after a LEAVE: the next home's where the head has left, and else left alone. -/
theorem left_walk (hr : t.rqt = (walkerDrop p u).rqt) (hl : t.lbc = (walkerDrop p u).lbc) (hs : t.scu = u.scu) :
    t.rqt.homes = u.rqt.homes.erase p
      ∧ (∃ new, (u.rqt.homes.head? = some p →
          walkerPlaced (clearMarks p u.rqt.holds) (withoutReasserts p u.lbc.priority) 0 t new
          ∧ (t.rqt.homes = [] → t.rqt.phase = none) ∧ (t.rqt.homes ≠ [] → walkBegun t new))
        ∧ (u.rqt.homes.head? ≠ some p → sameWalkBut u t ∧ t.rqt.holds = u.rqt.holds))
      ∧ unmarked t.rqt.holds = unmarked u.rqt.holds := by
  have hscu : t.scu = (walkerDrop p u).scu := hs.trans (walkerDrop_walkOnly p u).2.2.2.2.2.2.1.1.symm
  have hpri : t.lbc.priority = (walkerDrop p u).lbc.priority := congrArg Lbc.priority hl
  by_cases hh : u.rqt.homes.head? = some p
  · obtain ⟨rest, hrest⟩ := List.head?_eq_some_iff.mp hh
    obtain ⟨hhomes, hnone, new, hbegun, hplaced⟩ := walkerDrop_head hrest
    have hplaced' := walkerPlaced_congr hr hscu hpri hplaced
    have hth : t.rqt.homes = rest := (congrArg Rqt.homes hr).trans hhomes
    refine ⟨hth.trans (by rw [hrest, List.erase_cons_head]), ⟨new, fun _ => ⟨hplaced', fun hn => ?_, fun hn => ?_⟩,
      fun hn => absurd hh hn⟩, hplaced'.2.2.1.trans (unmarked_clearMarks _ _)⟩
    · exact (congrArg Rqt.phase hr).trans (hnone (hth.symm.trans hn))
    · exact walkBegun_congr hr (hbegun fun he => hn (hth.trans he))
  · rw [walkerDrop_later hh] at hr hl
    exact ⟨by rw [hr], ⟨[], fun hn => absurd hn hh, fun _ => ⟨⟨by rw [hr], by rw [hr], by rw [hl]⟩, by rw [hr]⟩⟩,
      by rw [hr]⟩

/-! ### The waits issued again (R96) -/

/-- A waiting ACQUIRE on the peer's locks stands in the normal list again. -/
theorem turned.reissued {v : State} {q : Operation} {m : Mode} (hp : p ≠ s.hw.id) (ht : turned (reissueSlot p) h t)
    (hb : Between s v h t) (hq : onHome s p n q) (hs : (s.hw.rqt.slot n).state = .waiting) (hop : q.op = .acquire)
    (hm : q.mode = some m) : v.hw.rqt.slot n = { s.hw.rqt.slot n with state := .queuedOut }
      ∧ { kind := .acquire, slot := n, mode := m, tryFlag := q.tryFlag, lock := q.lock } ∈ v.hw.lbc.normal := by
  obtain ⟨g, hid, hslot, -, hv, -, hen, -⟩ := ht.waiting hb (fun n g => reissueSlot_turn p n g) hq hs
  have hqg : (g.rqt.slot n).operation = some q := hslot ▸ hq.2.1
  have hiss := issueOperation_listed g n hqg (by rw [hid, hq.2.2]; exact hp)
  have hx : slotTransaction q.op.kind n q =
      { kind := .acquire, slot := n, mode := m, tryFlag := q.tryFlag, lock := q.lock } := by
    simp [slotTransaction, hop, hm, Op.kind]
  rw [hx] at hiss
  refine ⟨hv.trans ?_, (hen _ (by simp [isSlotEntry, Kind.isSlot])).mpr ?_⟩ <;> rw [hiss]
  · exact (slot_setSlot_same _ _ _).trans (by rw [hslot])
  · simp [placeNormal]

/-! ### O55 -/

/-- What the turns leave alone of the station before them, by way of the home told. -/
theorem told_frame {fn : SlotId → Hw → Hw} {e : Bool} (hhome : h.home ≠ .inactive) (ht : turned fn (peerGone p e h) u) :
    u.rqt.homes = h.rqt.homes ∧ u.rqt.outstanding = h.rqt.outstanding ∧ u.rqt.phase = h.rqt.phase
      ∧ u.lbc.priority = h.lbc.priority ∧ (peerGone p e h).rqt.holds = h.rqt.holds ∧ u.scu = (peerGone p e h).scu := by
  obtain ⟨hgr, hgl, -, -, -⟩ := peerGone_rest (p := p) hhome e
  have hfr := ht.1
  exact ⟨hfr.homes.trans (by rw [hgr]), hfr.outstanding.trans (by rw [hgr]), hfr.phase.trans (by rw [hgr]),
    hfr.priority.trans (by rw [hgl]), by rw [hgr], hfr.scu⟩

theorem reissueWaits_eq (p : StationId) (g : Hw) : reissueWaits p g = forSlots (reissueSlot p) g := by
  rw [reissueWaits]

/-- The effects of a peer's JOIN at a station that is present (R136). -/
theorem peerJoined_observed {ef : Bool} (hs : s.hw.scu.station.present = true) (hp : p ≠ s.hw.id)
    (ht : inOrder ef (raiseEvent (.peerJoined p)) (fun g => walkerAdd p (reissueWaits p g))
      (peerGone p false (peerSeen p s.hw)) = t) :
    t.mbu.member p = ⟨.present, some 0⟩
      ∧ unawaited s { s with hw := t } p (received (.purgeCause p false) s.hw.htu)
          { s.hw.cqu.events with peerJoined := some p }
      ∧ t.rqt.homes = (if p ∈ s.hw.rqt.homes then s.hw.rqt.homes else s.hw.rqt.homes ++ [p])
      ∧ (holdTableLaw s.hw.rqt.holds → ∃ holds new, reservationsGone s.hw.rqt.holds holds
        ∧ reservationsSettled s { s with hw := t } holds
        ∧ (s.hw.rqt.homes = [] → walkBegun t new
          ∧ walkerPlaced holds s.hw.lbc.priority s.hw.rqt.outstanding t new)
        ∧ (s.hw.rqt.homes.head? = some p → walkBegun t new
          ∧ walkerPlaced (clearMarks p holds) (withoutReasserts p s.hw.lbc.priority)
              (s.hw.rqt.outstanding - reassertsListed p s.hw.lbc.priority) t new)
        ∧ (s.hw.rqt.homes ≠ [] → s.hw.rqt.homes.head? ≠ some p → sameWalkBut s.hw t ∧ t.rqt.holds = holds))
      ∧ (∀ n q m, onHome s p n q → (s.hw.rqt.slot n).state = .waiting → q.op = .acquire → q.mode = some m →
          t.rqt.slot n = { s.hw.rqt.slot n with state := .queuedOut }
          ∧ { kind := .acquire, slot := n, mode := m, tryFlag := q.tryFlag, lock := q.lock } ∈ t.lbc.normal)
      ∧ cancelsRemoved s { s with hw := t } p ∧ otherSlotsKept s { s with hw := t } p := by
  have hhome : s.hw.home ≠ .inactive := home_present hs
  obtain ⟨k, u, -, -, hturned, hb, hun, hrqt, hlbc, hscu, hmbu, -⟩ :=
    peerGone_told (f := reissueSlot p) (w := walkerAdd p) ht rfl rfl rfl rfl rfl hhome (reissueSlot_turns hp)
      (fun g => by rw [reissueWaits_eq]) (walkerAdd_cqu p) (walkerAdd_walkOnly p)
  obtain ⟨hhomes, hout, hphase, hpri, hholds, hus⟩ := told_frame (h := peerSeen p s.hw) hhome hturned
  obtain ⟨hth, new, hwalk⟩ := joined_walk hrqt hlbc (hscu.trans hus.symm)
  rw [hhomes, hout, hpri] at hwalk
  have hturn (n : SlotId) (g : Hw) := reissueSlot_turn p n g
  refine ⟨(congrArg (Mbu.member · p) hmbu).trans (peerSeen_member hs), hun, hth.trans (by rw [hhomes]; rfl), fun hl =>
    ⟨u.rqt.holds, new, ?_, ?_, hwalk.1, hwalk.2.1, fun hn hd => ?_⟩, fun n q m hq hs hop hm =>
    hturned.reissued hp hb hq hs hop hm, hturned.cancelsRemoved hp hb hturn, hturned.otherSlotsKept hb hturn⟩
  · rw [← show (peerGone p false (peerSeen p s.hw)).rqt.holds = s.hw.rqt.holds from hholds]
    exact hturned.gone (by rw [hholds]; exact hl)
  · exact hturned.settled (by rw [hholds]; exact hl) hb.slotsIn hb.slotsOut fun e he _ => by rw [hholds]; exact he
  · obtain ⟨⟨h1, h2, h3⟩, h4⟩ := hwalk.2.2 hn hd
    exact ⟨⟨h1.trans hphase, h2.trans hout, h3.trans hpri⟩, h4⟩

/-- The effects of a peer's LEAVE at a station that is present (R150). -/
theorem peerLeft_observed {ef : Bool} (hs : s.hw.scu.station.present = true) (hp : p ≠ s.hw.id)
    (hl : holdTableLaw s.hw.rqt.holds)
    (ht : inOrder ef (raiseEvent (.peerLeft p)) (fun g => walkerDrop p (failWaits p g))
      (peerGone p false (peerUnseen p s.hw)) = t) :
    t.mbu.member p = ⟨.absent, none⟩ ∧ (∀ v, v ≠ p → t.mbu.member v = s.hw.mbu.member v)
      ∧ unawaited s { s with hw := t } p (received (.purgeCause p false) s.hw.htu)
          { s.hw.cqu.events with peerLeft := some p }
      ∧ waitsFailed s { s with hw := t } p ∧ otherSlotsKept s { s with hw := t } p
      ∧ t.rqt.homes = s.hw.rqt.homes.erase p
      ∧ (∃ holds new, reservationsGone s.hw.rqt.holds holds ∧ reservationsSettled s { s with hw := t } holds
        ∧ (s.hw.rqt.homes.head? = some p →
          walkerPlaced (clearMarks p holds) (withoutReasserts p s.hw.lbc.priority) 0 t new
          ∧ (t.rqt.homes = [] → t.rqt.phase = none) ∧ (t.rqt.homes ≠ [] → walkBegun t new))
        ∧ (s.hw.rqt.homes.head? ≠ some p → sameWalkBut s.hw t ∧ t.rqt.holds = holds))
      ∧ (∀ e ∈ s.hw.rqt.holds, e.2.state ≠ .reserved →
          ∃ e' ∈ t.rqt.holds, e' = (e.1, { e.2 with mark := e'.2.mark }))
      ∧ t.port = s.hw.port := by
  have hhome : s.hw.home ≠ .inactive := home_present hs
  obtain ⟨hgr, -, -, -, hgi⟩ := peerGone_rest (p := p) (h := peerUnseen p s.hw) hhome false
  obtain ⟨k, u, hk, hu, hturned, hb, hun, hrqt, hlbc, hscu, hmbu, hport⟩ :=
    peerGone_told (f := failSlot p) (w := walkerDrop p) ht rfl rfl rfl rfl rfl hhome (failSlot_turns hp)
      (fun g => by rw [failWaits_eq, id]) (walkerDrop_cqu p) (walkerDrop_walkOnly p)
  obtain ⟨hhomes, hout, hphase, hpri, hholds, hus⟩ := told_frame (h := peerUnseen p s.hw) hhome hturned
  obtain ⟨hth, ⟨new, hhead, hlater⟩, hunm⟩ := left_walk hrqt hlbc (hscu.trans hus.symm)
  rw [hhomes, hpri] at hhead
  rw [hhomes] at hlater
  have hturn (n : SlotId) (g : Hw) := failSlot_turn p n g
  have hgone : reservationsGone s.hw.rqt.holds u.rqt.holds := by
    rw [← show (peerGone p false (peerUnseen p s.hw)).rqt.holds = s.hw.rqt.holds from hholds]
    exact hturned.gone (by rw [hholds]; exact hl)
  refine ⟨(congrArg (Mbu.member · p) hmbu).trans (setMember_same p _ s.hw), fun v hv =>
    (congrArg (Mbu.member · v) hmbu).trans (setMember_ne hv _ s.hw), hun, hturned.waitsFailed hp hb fun hno => ?_,
    hturned.otherSlotsKept hb hturn, hth.trans (by rw [hhomes]; rfl), ⟨u.rqt.holds, new, hgone, ?_, hhead, fun hn => ?_⟩,
    fun e he hs => mem_of_unmarked hunm (hgone.2 e he hs), hport⟩
  · exact hu ▸ failWaits_untold hp hgi hgr hk hno
  · exact hturned.settled (by rw [hholds]; exact hl) hb.slotsIn hb.slotsOut fun e he _ => by rw [hholds]; exact he
  · obtain ⟨⟨h1, h2, h3⟩, h4⟩ := hlater hn
    exact ⟨⟨h1.trans hphase, h2.trans hout, h3.trans hpri⟩, h4⟩

theorem absent_of_joining (hs : h.scu.station = .listening ∨ h.scu.station = .joining) :
    h.scu.station.present = false := by
  rcases hs with hs | hs <;> rw [hs] <;> rfl

/-- Settles O55: JOIN, PURGE and LEAVE of a peer, at a station that is present and at one that is not. -/
theorem peerJoinObserved : Obligations.PeerJoinObserved := by
  refine ⟨fun s r x o ef j hc hk hv hj => ⟨fun hb _ => ?_, fun hb hs => ?_, fun hb hs => ?_⟩, fun s r x o ef hc hk hv => ?_,
    fun s r x o ef hc hk hv => ⟨fun hs hl => ?_, fun hs => ?_⟩⟩
  · rw [exec_peerJoin hc hk hv hj, peerJoined_seen hb]
    rfl
  · rw [exec_peerJoin hc hk hv hj, peerJoined_eq (h := peerSeen r.winner s.hw) hs hc.2.2.1 hb]
    generalize ht : inOrder ef _ _ _ = t
    exact ⟨_, rfl, peerJoined_observed hs hc.2.2.1 ht⟩
  · have hna := absent_of_joining hs
    have hq : peerJoined r.winner j ef (peerSeen r.winner s.hw) = peerSeen r.winner s.hw :=
      if_neg fun hn => by rw [show (peerSeen r.winner s.hw).scu.station.present = false from hna] at hn; cases hn.1
    rw [exec_peerJoin hc hk hv hj, hq]
    refine ⟨_, rfl, ?_, rfl, rfl, rfl, rfl⟩
    rw [show (peerSeen r.winner s.hw).mbu = s.hw.mbu.setMember r.winner ⟨.present, none⟩ by rw [peerSeen, hna]; rfl]
    exact setMember_same r.winner ⟨.present, none⟩ s.hw
  · rw [exec_peerPurge hc hk hv]
    by_cases hi : s.hw.home = .inactive
    · rw [show deliverPurgeCause r.winner false (peerSeen r.winner s.hw) = peerSeen r.winner s.hw from if_pos hi, if_pos hi]
      rfl
    · rw [deliverPurgeCause_serving (h := peerSeen r.winner s.hw) hi, if_neg hi]
      rfl
  · rw [exec_peerLeave hc hk hv, peerLeft_eq (h := peerUnseen r.winner s.hw) hs hc.2.2.1]
    generalize ht : inOrder ef _ _ _ = t
    exact ⟨_, rfl, peerLeft_observed hs hc.2.2.1 hl ht⟩
  · have hna := absent_of_joining hs
    have hq : peerLeft r.winner ef (peerUnseen r.winner s.hw) = peerUnseen r.winner s.hw :=
      if_neg fun hn => by rw [show (peerUnseen r.winner s.hw).scu.station.present = false from hna] at hn; cases hn.1
    rw [exec_peerLeave hc hk hv, hq]
    exact ⟨_, rfl, rfl, rfl, rfl, rfl, rfl, rfl⟩

end Sys2Proof.Machine
end

section
/-! O56: an EVICT that names this station (R93, R124). -/

namespace Sys2Proof.Machine

variable {g h t k u : Hw} {n m : SlotId} {p : StationId} {s : State} {r : TxRecord} {x : Transaction} {o : Lines}

/-! ### The holds revoked, and a NOTICE for each slot that had one (R93, R100) -/

/-- The hold table with the HELD entries on a home's locks REVOKED. -/
def revokedTable (p : StationId) (l : List (Nat × Hold)) : List (Nat × Hold) :=
  l.map fun q => (q.1, revokeHold p q.2)

/-- From `h` to `k` the holds on the locks of home `p` have been revoked, and their slots told. -/
structure Revoked (p : StationId) (h k : Hw) : Prop where
  rqt : k.rqt = { h.rqt with holds := revokedTable p h.rqt.holds }
  scu : k.scu = h.scu
  lbc : k.lbc = h.lbc
  htu : k.htu = h.htu
  mbu : k.mbu = h.mbu
  events : k.cqu.events = h.cqu.events
  notice : ∀ n, holdsAt p n h.rqt.holds = true → k.cqu.notice n = true

theorem requestNotice_events (n : SlotId) (h : Hw) : (requestNotice n h).cqu.events = h.cqu.events := by
  unfold requestNotice
  split
  · rfl
  · simp [Cqu.setNotice]

/-- A slot told once stays so. -/
theorem requestNotice_keeps (m : SlotId) (hn : h.cqu.notice n = true) : (requestNotice m h).cqu.notice n = true := by
  unfold requestNotice
  split
  · exact hn
  · rw [notice_of_notices (appendEntry_notices _ _), notice_setNotice]
    split
    · rfl
    · exact hn

/-- The slots of a list that had a hold are told, and nothing else alters. -/
theorem notices_requested (b : SlotId → Bool) (l : List SlotId) :
    let f := fun g n => if b n then requestNotice n g else g
    (l.foldl f h).rqt = h.rqt ∧ (l.foldl f h).scu = h.scu ∧ (l.foldl f h).lbc = h.lbc ∧ (l.foldl f h).htu = h.htu
      ∧ (l.foldl f h).mbu = h.mbu ∧ (l.foldl f h).cqu.events = h.cqu.events
      ∧ (∀ n, h.cqu.notice n = true → (l.foldl f h).cqu.notice n = true)
      ∧ ∀ n ∈ l, b n = true → (l.foldl f h).cqu.notice n = true := by
  intro f
  induction l generalizing h with
  | nil => exact ⟨rfl, rfl, rfl, rfl, rfl, rfl, fun _ hn => hn, fun _ hn => by cases hn⟩
  | cons m l ih =>
    have hf : (f h m).rqt = h.rqt ∧ (f h m).scu = h.scu ∧ (f h m).lbc = h.lbc ∧ (f h m).htu = h.htu
        ∧ (f h m).mbu = h.mbu ∧ (f h m).cqu.events = h.cqu.events
        ∧ (∀ n, h.cqu.notice n = true → (f h m).cqu.notice n = true) ∧ (b m = true → (f h m).cqu.notice m = true) := by
      cases hb : b m with
      | true =>
        have hfm : f h m = requestNotice m h := if_pos hb
        rw [hfm]
        exact ⟨by simp, by simp, by simp, by simp, by simp, requestNotice_events m h, fun n => requestNotice_keeps m,
          fun _ => requestNotice_notice m h⟩
      | false =>
        have hfm : f h m = h := if_neg (by simp [hb])
        rw [hfm]
        exact ⟨rfl, rfl, rfl, rfl, rfl, rfl, fun _ hn => hn, nofun⟩
    obtain ⟨f1, f2, f3, f4, f5, f6, f7, f8⟩ := hf
    obtain ⟨i1, i2, i3, i4, i5, i6, i7, i8⟩ := ih (h := f h m)
    refine ⟨i1.trans f1, i2.trans f2, i3.trans f3, i4.trans f4, i5.trans f5, i6.trans f6, fun n hn => i7 n (f7 n hn),
      fun n hn hb => ?_⟩
    rcases List.mem_cons.mp hn with rfl | hn
    · exact i7 n (f8 hb)
    · exact i8 n hn hb

/-- The station with its holds revoked and their slots told, before the slots' turns. -/
def revokedFirst (p : StationId) (h : Hw) : Hw :=
  forSlots (fun n g => if holdsAt p n h.rqt.holds then requestNotice n g else g)
    (h.setHolds (h.rqt.holds.map fun q => (q.1, revokeHold p q.2)))

theorem revokeByEvict_eq (p : StationId) (h : Hw) :
    revokeByEvict p h = forSlots (evictSlot p) (revokedFirst p h) := by
  rw [revokeByEvict, revokedFirst]

theorem revokedFirst_revoked (p : StationId) (h : Hw) : Revoked p h (revokedFirst p h) := by
  obtain ⟨i1, i2, i3, i4, i5, i6, -, i8⟩ := notices_requested
    (h := h.setHolds (h.rqt.holds.map fun q => (q.1, revokeHold p q.2))) (fun n => holdsAt p n h.rqt.holds)
    (List.finRange 32)
  exact ⟨i1, i2, i3, i4, i5, i6, fun n hn => i8 n (List.mem_finRange n) hn⟩

/-! ### The event and the revocation, in either order (R98) -/

/-- What an EVICT does to the station it names: its holds are revoked, then its waits have their turns. -/
theorem evicted_told {ef : Bool} (hp : p ≠ h.id)
    (ht : inOrder ef (raiseEvent (.evictedBy p)) (revokeByEvict p) h = t) :
    ∃ k u, k.rqt = { h.rqt with holds := revokedTable p h.rqt.holds } ∧ k.scu = h.scu ∧ k.lbc = h.lbc ∧ k.htu = h.htu
      ∧ k.mbu = h.mbu ∧ turned (evictSlot p) k u ∧ t.rqt = u.rqt ∧ t.lbc = u.lbc ∧ t.scu = u.scu ∧ t.htu = u.htu
      ∧ t.mbu = u.mbu ∧ t.cqu.events = h.cqu.events.raise (.evictedBy p) ∧ (∀ e ∈ u.cqu.queue, e ∈ t.cqu.queue)
      ∧ ∀ n, holdsAt p n h.rqt.holds = true → t.cqu.notice n = true := by
  subst ht
  cases ef with
  | true =>
    have hk := revokedFirst_revoked p (raiseEvent (.evictedBy p) h)
    have hf : turns (revokedFirst p (raiseEvent (.evictedBy p) h)).id (evictSlot p) := evictSlot_turns (by
      rw [Hw.id, hk.scu, raiseEvent_scu]; exact hp)
    simp only [inOrder, if_true, revokeByEvict_eq]
    refine ⟨_, _, hk.rqt.trans (by rw [raiseEvent_rqt]), hk.scu.trans (raiseEvent_scu _ _), hk.lbc.trans (raiseEvent_lbc _ _),
      hk.htu.trans (raiseEvent_htu _ _), hk.mbu.trans (raiseEvent_mbu _ _), forSlots_turned hf, rfl, rfl, rfl, rfl, rfl,
      (forSlots_events hf).trans (hk.events.trans (raiseEvent_events _ _)), fun _ he => he, fun n hn => ?_⟩
    rw [notice_of_notices (forSlots_notices hf)]
    exact hk.notice n (by rwa [raiseEvent_rqt])
  | false =>
    have hk := revokedFirst_revoked p h
    have hf : turns (revokedFirst p h).id (evictSlot p) := evictSlot_turns (by rw [Hw.id, hk.scu]; exact hp)
    simp only [inOrder, Bool.false_eq_true, if_false, revokeByEvict_eq]
    refine ⟨_, _, hk.rqt, hk.scu, hk.lbc, hk.htu, hk.mbu, forSlots_turned hf, raiseEvent_rqt _ _, raiseEvent_lbc _ _,
      raiseEvent_scu _ _, raiseEvent_htu _ _, raiseEvent_mbu _ _, ?_, (raiseEvent_keepsSlot _ 0 _).queue, fun n hn => ?_⟩
    · rw [raiseEvent_events, forSlots_events hf, hk.events]
    · rw [notice_of_notices (raiseEvent_notices _ _), notice_of_notices (forSlots_notices hf)]
      exact hk.notice n hn

/-! ### The hold table after a revocation -/

theorem revokeHold_held {e : Hold} (hh : homeOf e.lock = p) (hs : e.state = .held) :
    revokeHold p e = { e with state := .revoked } := if_pos ⟨hh, hs⟩

theorem revokeHold_other {e : Hold} (hn : ¬(homeOf e.lock = p ∧ e.state = .held)) : revokeHold p e = e := if_neg hn

theorem mem_revokedTable {l : List (Nat × Hold)} {e : Nat × Hold} (he : e ∈ l) :
    (e.1, revokeHold p e.2) ∈ revokedTable p l := List.mem_map_of_mem he

theorem mem_revokedTable_other {l : List (Nat × Hold)} {e : Nat × Hold} (he : e ∈ l)
    (hn : ¬(homeOf e.2.lock = p ∧ e.2.state = .held)) : e ∈ revokedTable p l := by
  have := mem_revokedTable (p := p) he
  rwa [revokeHold_other hn] at this

theorem holdsAt_of_mem {l : List (Nat × Hold)} {e : Nat × Hold} (he : e ∈ l) (hh : homeOf e.2.lock = p)
    (hs : e.2.state = .held) : holdsAt p e.2.slot l = true :=
  List.any_eq_true.mpr ⟨e, he, by simp [hh, hs]⟩

theorem exec_peerEvict (hc : peerCompletion s r x) (hk : x.kind = .evict) (hx : x.target = s.hw.id) (hv : ¬voided r o)
    (hs : s.hw.scu.station.present = true) (ef : Bool) :
    exec (.completion o ef) s = .next { s with
      hw := inOrder ef (raiseEvent (.evictedBy r.winner)) (revokeByEvict r.winner) (peerSeen r.winner s.hw) } := by
  have hout : outcomeAt r o = .complete := outcomeAt_complete hc.2.2.2 (by rw [hk]; rfl) hv
  have hev : evicted r.winner ef (peerSeen r.winner s.hw) =
      inOrder ef (raiseEvent (.evictedBy r.winner)) (revokeByEvict r.winner) (peerSeen r.winner s.hw) := if_pos hs
  rw [exec_peerCompletion hc (by simp [hk]) (by rw [hout]; nofun), ← hev]
  simp only [observerCompleted, hk]
  rw [if_pos (show x.target = (peerSeen r.winner s.hw).id from hx)]

/-- Settles O56: the holds revoked and told, then the waits turn by turn. -/
theorem evictRevokesHolds : Obligations.EvictRevokesHolds := by
  intro s r x o ef hc hk hx hv hs hlaw
  have hp : r.winner ≠ s.hw.id := hc.2.2.1
  rw [exec_peerEvict hc hk hx hv hs]
  generalize ht : inOrder ef _ _ _ = t
  obtain ⟨k, u, hkr, hks, hkl, hkh, hkm, hturned, hrqt, hlbc, hscu, hhtu, hmbu, hev, hqu, hnot⟩ :=
    evicted_told (h := peerSeen r.winner s.hw) hp ht
  have hfr := hturned.1
  have hturn (n : SlotId) (g : Hw) := evictSlot_turn r.winner n g
  have hkholds : k.rqt.holds = revokedTable r.winner s.hw.rqt.holds := congrArg Rqt.holds hkr
  have hb : Between s { s with hw := t } k u :=
    ⟨congrArg Scu.id hks, fun n => (congrArg (Rqt.slot · n) hkr).symm, (congrArg Lbc.normal hkl).symm,
      (congrArg Rqt.answer hkr).symm, fun n => congrArg (Rqt.slot · n) hrqt, congrArg Lbc.normal hlbc,
      congrArg Rqt.answer hrqt, hqu⟩
  have hlaw' : holdTableLaw k.rqt.holds := by rw [hkholds]; exact revoke_law r.winner hlaw
  have hholds : t.rqt.holds = u.rqt.holds := congrArg Rqt.holds hrqt
  have hgone := hturned.gone hlaw'
  rw [hkholds, ← hholds] at hgone
  have hsettled : reservationsSettled s { s with hw := t } t.rqt.holds := by
    rw [hholds]
    refine hturned.settled hlaw' hb.slotsIn hb.slotsOut fun e he hres => ?_
    rw [hkholds]
    exact mem_revokedTable_other he (by simp [hres])
  have hothers : otherSlotsKept s { s with hw := t } r.winner := hturned.otherSlotsKept hb hturn
  refine ⟨_, rfl, fun e he hh hst => ⟨?_, hnot _ (holdsAt_of_mem he hh hst)⟩, fun e he hh hst hres => ?_, hsettled,
    fun e he hh => ?_, fun n q hq hst => ?_, hturned.cancelsRemoved hp hb hturn, hothers, hev, ?_,
    hhtu.trans (hfr.htu.trans hkh), hscu.trans (hfr.scu.trans hks),
    ?_⟩
  · have hm := mem_revokedTable (p := r.winner) he
    rw [revokeHold_held hh hst] at hm
    exact hgone.2 _ hm (by simp)
  · exact hgone.2 e (mem_revokedTable_other he fun hn => hst hn.2) hres
  · by_cases hres : e.2.state = .reserved
    · refine (hsettled e he hres).2 fun ⟨hnd, hd, q, hq, hlk⟩ => hnd ?_
      have hna : (s.hw.rqt.slot e.2.slot).homedAt r.winner = false := by
        rw [homedAt_eq hq, hlk]
        exact decide_eq_false hh
      rwa [hothers _ (.inr (.inl hna))] at hd
    · exact hgone.2 e (mem_revokedTable_other he fun hn => hh hn.1) hres
  · obtain ⟨g, -, hslot, -, hv, hq', -, -⟩ := hturned.waiting hb hturn hq hst
    obtain ⟨hend, hres⟩ := endAcquire_ended (g := g) (n := n) (hslot ▸ hq.2.1) .homeEvicted .none
    exact ⟨hv.trans (hend.trans (congrArg SlotRecord.ended hslot)), hq' _ hres⟩
  · exact (congrArg (Mbu.member · r.winner) (hmbu.trans (hfr.mbu.trans hkm))).trans (peerSeen_member hs)
  · exact (congrArg Lbc.priority hlbc).trans (hfr.priority.trans ((congrArg Lbc.priority hkl).trans rfl))

end Sys2Proof.Machine
end

section
/-! What a home does with claims waiting is what it does without them: they stand before those it receives (R23, R53).
For O31 and O44. -/

namespace Sys2Proof.Machine

variable (cs : List Claim) (h : Hw) (n : SlotId)

/-- The home with more claims waiting, before its own. -/
def behind (cs : List Claim) (h : Hw) : Hw := h.setHtu { h.htu with claims := cs ++ h.htu.claims }

/-! ### What the claims that wait do not touch -/

@[simp] theorem behind_scu : (behind cs h).scu = h.scu := rfl
@[simp] theorem behind_lbc : (behind cs h).lbc = h.lbc := rfl
@[simp] theorem behind_rqt : (behind cs h).rqt = h.rqt := rfl
@[simp] theorem behind_mbu : (behind cs h).mbu = h.mbu := rfl
@[simp] theorem behind_cqu : (behind cs h).cqu = h.cqu := rfl
@[simp] theorem behind_port : (behind cs h).port = h.port := rfl
@[simp] theorem behind_slot : (behind cs h).slot n = h.slot n := rfl
@[simp] theorem behind_id : (behind cs h).id = h.id := rfl
@[simp] theorem behind_home : (behind cs h).home = h.home := rfl
@[simp] theorem behind_htu : (behind cs h).htu = { h.htu with claims := cs ++ h.htu.claims } := rfl

variable {cs h} in
/-- A choice that does not look at the claims that wait. -/
theorem ite_behind {c : Prop} {i j : Decidable c} {a b f g : Hw} (ha : a = behind cs f) (hb : b = behind cs g) :
    @ite _ c i a b = behind cs (@ite _ c j f g) := by
  subst ha hb
  by_cases hc : c
  · rw [if_pos hc, if_pos hc]
  · rw [if_neg hc, if_neg hc]

theorem behind_nil : behind [] h = h := rfl

/-! ### The tracker -/

theorem setSlot_behind (r : SlotRecord) : (behind cs h).setSlot n r = behind cs (h.setSlot n r) := rfl

theorem setHolds_behind (t : List (Nat × Hold)) : (behind cs h).setHolds t = behind cs (h.setHolds t) := rfl

theorem placeNormal_behind (x : Transaction) : placeNormal x (behind cs h) = behind cs (placeNormal x h) := rfl

theorem placePriority_behind (x : Transaction) : placePriority x (behind cs h) = behind cs (placePriority x h) := rfl

theorem appendEntry_behind (e : QueueEntry) : appendEntry e (behind cs h) = behind cs (appendEntry e h) := rfl

theorem raiseEvent_behind (ev : Event) : raiseEvent ev (behind cs h) = behind cs (raiseEvent ev h) := by
  unfold raiseEvent
  exact ite_behind rfl rfl

/-- A claim received stands behind those that wait. -/
theorem addClaim_behind (c : Claim) : addClaim c (behind cs h) = behind cs (addClaim c h) := by
  by_cases hf : h.htu.engaged = .free
  · rw [addClaim, addClaim, receive_atFree (u := (behind cs h).htu) hf, receive_atFree hf]
    rfl
  · rw [addClaim, addClaim, receive_atEngaged (u := (behind cs h).htu) hf, receive_atEngaged hf]
    simp [behind, Hw.setHtu]

theorem walkerPlaceOne_behind : walkerPlaceOne (behind cs h) = behind cs (walkerPlaceOne h) := by
  unfold walkerPlaceOne
  simp only [behind_rqt]
  split
  · refine ite_behind ?_ rfl
    split <;> rfl
  · rfl

theorem walkerAct_behind : walkerAct (behind cs h) = behind cs (walkerAct h) := by
  simp only [walkerAct, walkerPlaceOne_behind]

theorem endOperation_behind (c : ResultCode) (d : ResultDetail) (m : Option Mode) :
    endOperation n c d m (behind cs h) = behind cs (endOperation n c d m h) := by
  unfold endOperation
  simp only [behind_slot]
  split <;> rfl

theorem endAcquire_behind (c : ResultCode) (d : ResultDetail) :
    endAcquire n c d (behind cs h) = behind cs (endAcquire n c d h) := endOperation_behind cs h n c d _

theorem endCancelled_behind (c : CancelCause) : endCancelled n c (behind cs h) = behind cs (endCancelled n c h) :=
  endAcquire_behind cs h n _ _

theorem endRecordedCancel_behind : endRecordedCancel n (behind cs h) = behind cs (endRecordedCancel n h) :=
  endCancelled_behind cs h n _

theorem issueCancel_behind (c : CancelCause) : issueCancel n c (behind cs h) = behind cs (issueCancel n c h) := by
  unfold issueCancel
  simp only [behind_slot]
  split
  · rfl
  · refine ite_behind ?_ rfl
    rw [setSlot_behind, addClaim_behind]
    rfl

theorem acquireHeld_behind (m : Mode) : acquireHeld n m (behind cs h) = behind cs (acquireHeld n m h) := by
  unfold acquireHeld
  simp only [behind_slot, behind_rqt, setHolds_behind]
  split
  · rfl
  · rw [endAcquire_behind, walkerAct_behind]

theorem countAttempt_behind : countAttempt n (behind cs h) = behind cs (countAttempt n h) := rfl

theorem enterBackoff_behind : enterBackoff n (behind cs h) = behind cs (enterBackoff n h) := rfl

theorem atLimit_behind : atLimit n (behind cs h) = atLimit n h := rfl

theorem countRefusal_behind (d : RefusedDetail) : countRefusal n d (behind cs h) = behind cs (countRefusal n d h) := by
  cases d <;> rfl

theorem acquireAnswered_behind (r : Response) : acquireAnswered n r (behind cs h) = behind cs (acquireAnswered n r h) := by
  unfold acquireAnswered
  simp only [behind_slot, countRefusal_behind, atLimit_behind]
  cases r with
  | granted =>
    dsimp only
    split
    · exact acquireHeld_behind cs h n _
    · rfl
  | queued =>
    dsimp only
    split
    · rfl
    · exact issueCancel_behind cs h n _
  | busy => exact endAcquire_behind cs h n _ _
  | refused d =>
    dsimp only
    split
    · exact endCancelled_behind cs _ n _
    · exact ite_behind (endAcquire_behind cs _ n _ _) rfl
  | done | stale | notWaiting | accept | decline | conflict => rfl

theorem operationHold_behind : operationHold n (behind cs h) = operationHold n h := rfl

theorem dropOperationHold_behind : dropOperationHold n (behind cs h) = behind cs (dropOperationHold n h) := by
  unfold dropOperationHold
  simp only [behind_slot]
  split <;> rfl

theorem setOperationHold_behind (s : HoldState) (m : Mode) :
    setOperationHold n s m (behind cs h) = behind cs (setOperationHold n s m h) := by
  unfold setOperationHold
  simp only [behind_slot]
  split <;> rfl

theorem endRelease_behind (d : ResultDetail) : endRelease n d (behind cs h) = behind cs (endRelease n d h) := by
  rw [endRelease, endRelease, operationHold_behind, dropOperationHold_behind, endOperation_behind]

theorem slotAnswered_behind (k : Kind) (r : Response) : slotAnswered k n r (behind cs h) = behind cs (slotAnswered k n r h) := by
  cases k with
  | acquire => exact acquireAnswered_behind cs h n r
  | release =>
    cases r with
    | done | stale => exact endRelease_behind cs h n _
    | _ => rfl
  | downgrade =>
    cases r with
    | done =>
      show walkerAct (endOperation n _ _ _ (setOperationHold n _ _ (behind cs h))) = _
      rw [setOperationHold_behind, endOperation_behind, walkerAct_behind]
      rfl
    | stale =>
      show endOperation n _ _ _ (dropOperationHold n (behind cs h)) = _
      rw [dropOperationHold_behind, endOperation_behind]
      rfl
    | _ => rfl
  | cancel =>
    cases r with
    | done | notWaiting => exact endRecordedCancel_behind cs h n
    | _ => rfl
  | _ => rfl

theorem takeResponse_behind (p : SelfResponse) : takeResponse p (behind cs h) = behind cs (takeResponse p h) := by
  unfold takeResponse
  refine ite_behind rfl (ite_behind ?_ rfl)
  exact slotAnswered_behind cs { h with rqt := { h.rqt with responses := h.rqt.responses.erase p } } _ _ _

theorem takeSlotResponse_behind : takeSlotResponse n (behind cs h) = behind cs (takeSlotResponse n h) := by
  unfold takeSlotResponse
  simp only [behind_rqt]
  split
  · rfl
  · exact takeResponse_behind cs h _

theorem takeSlotResponses_behind (k : Nat) :
    takeSlotResponses n k (behind cs h) = behind cs (takeSlotResponses n k h) := by
  induction k generalizing h with
  | zero => rfl
  | succ k ih => rw [takeSlotResponses, takeSlotResponse_behind, ih, takeSlotResponses]

theorem answerOffer_behind (l : LockId) (m : Mode) : answerOffer n l m (behind cs h) = answerOffer n l m h := rfl

theorem internalOffer_behind (l : LockId) (m : Mode) :
    internalOffer n l m (behind cs h) = behind cs (internalOffer n l m h) := by
  unfold internalOffer
  simp only [behind_rqt, takeSlotResponses_behind, answerOffer_behind]
  rw [← addClaim_behind]
  exact congrArg (addClaim _) (ite_behind (acquireHeld_behind cs _ n m) rfl)

/-! ### Offers and evaluations -/

theorem offer_behind (w : Waiter) : offer w (behind cs h) = behind cs (offer w h) := by
  unfold offer
  exact ite_behind (internalOffer_behind cs (h.setHtu (h.htu.moveToOffered w none)) _ _ _) (ite_behind rfl rfl)

theorem unstall_behind (i : LockIndex) : unstall i (behind cs h) = behind cs (unstall i h) := rfl

theorem stall_behind (i : LockIndex) : stall i (behind cs h) = behind cs (stall i h) := by
  unfold stall
  exact ite_behind rfl rfl

theorem headWaiter_behind (i : LockIndex) : headWaiter i (behind cs h).htu = headWaiter i h.htu := rfl

theorem holdersOf_behind (i : LockIndex) : holdersOf i (behind cs h).htu = holdersOf i h.htu := rfl

theorem holderFree_behind : holderFree (behind cs h).htu = holderFree h.htu := rfl

theorem evaluateFrom_behind (i : LockIndex) (k : Nat) : evaluateFrom i k (behind cs h) = behind cs (evaluateFrom i k h) := by
  induction k generalizing h with
  | zero => rfl
  | succ k ih =>
    unfold evaluateFrom
    rw [headWaiter_behind, holdersOf_behind, holderFree_behind]
    split
    · rfl
    · exact ite_behind (ite_behind (by rw [offer_behind, ih]) (stall_behind cs h i)) rfl

theorem evaluate_behind (i : LockIndex) : evaluate i (behind cs h) = behind cs (evaluate i h) :=
  evaluateFrom_behind cs h i _

/-- One evaluation after another, each blind to the claims that wait. -/
theorem foldl_behind {α : Type} {f : Hw → α → Hw} (hf : ∀ g a, f (behind cs g) a = behind cs (f g a)) (l : List α) :
    l.foldl f (behind cs h) = behind cs (l.foldl f h) := by
  induction l generalizing h with
  | nil => rfl
  | cons a l ih => rw [List.foldl_cons, hf, ih, List.foldl_cons]

theorem stalledPass_behind : stalledPass (behind cs h) = behind cs (stalledPass h) := by
  refine foldl_behind cs h (fun g i => ?_) _
  exact ite_behind (evaluate_behind cs g i) rfl

theorem evaluateChanged_behind (touched : List LockIndex) :
    evaluateChanged touched (behind cs h) = behind cs (evaluateChanged touched h) := by
  unfold evaluateChanged
  refine ite_behind ?_ rfl
  rw [foldl_behind cs h (fun g i => evaluate_behind cs g i), stalledPass_behind]

theorem evaluateTouched_behind (touched : List LockIndex) :
    evaluateTouched touched (behind cs h) = behind cs (evaluateTouched touched h) := by
  unfold evaluateTouched
  refine ite_behind ?_ rfl
  rw [foldl_behind cs h (fun g i => evaluate_behind cs g i), stalledPass_behind]

/-! ### Posting and withdrawing -/

theorem refillOne_behind : refillOne (behind cs h) = behind cs (refillOne h) := by
  unfold refillOne
  simp only [behind_htu]
  split
  · rfl
  · exact ite_behind rfl rfl

theorem refill_behind (k : Nat) : refill k (behind cs h) = behind cs (refill k h) := by
  induction k generalizing h with
  | zero => rfl
  | succ k ih => rw [refill, refillOne_behind, ih, refill]

theorem departGrant_behind : departGrant (behind cs h) = behind cs (departGrant h) := by
  unfold departGrant
  exact ite_behind rfl (refillOne_behind cs (h.setHtu { h.htu with posted := h.htu.posted - 1 }))

theorem withdrawOffer_behind (e : Holder) : withdrawOffer e (behind cs h) = behind cs (withdrawOffer e h) := by
  unfold withdrawOffer
  dsimp only
  split
  · exact ite_behind (departGrant_behind cs (removePriority _ h)) rfl
  · rfl
  · rfl

theorem withdrawOffers_behind (es : List Holder) : withdrawOffers es (behind cs h) = behind cs (withdrawOffers es h) :=
  foldl_behind cs h (fun g e => withdrawOffer_behind cs g e) _

/-! ### A decision applied, and a purge -/

theorem unawait_behind (p : StationId) : unawait p (behind cs h) = behind cs (unawait p h) := by
  unfold unawait
  refine ite_behind (ite_behind ?_ rfl) rfl
  exact raiseEvent_behind cs { h with
    htu := { h.htu with awaited := 0, rebuildTimer := none }, scu := { h.scu with station := .online } } _

theorem applyChanges_behind (c : Changes) : applyChanges c id (behind cs h) = behind cs (applyChanges c id h) := by
  have hu : unawaitOption c.unawait (behind cs (h.setHtu (h.htu.change c))) =
      behind cs (unawaitOption c.unawait (h.setHtu (h.htu.change c))) := by
    unfold unawaitOption
    split
    · exact unawait_behind cs _ _
    · rfl
  show evaluateChanged _ (withdrawOffers _ (unawaitOption _ (behind cs (h.setHtu (h.htu.change c))))) = _
  rw [hu, withdrawOffers_behind, evaluateChanged_behind]
  rfl

theorem applyDecision_behind (d : Option Decision) : applyDecision d (behind cs h) = behind cs (applyDecision d h) := by
  cases d with
  | none => rfl
  | some d => exact applyChanges_behind cs h d.changes

theorem queueEvict_behind (g : Purge) : queueEvict g (behind cs h) = behind cs (queueEvict g h) := by
  unfold queueEvict
  exact ite_behind rfl rfl

/-- A purge moves what has reached the home behind the claims that wait. -/
theorem startPurge_behind (p : StationId) (ev rb : Bool) (rest : List StationId) :
    startPurge p ev rb rest (behind cs h) = behind cs (startPurge p ev rb rest h) := by
  unfold startPurge
  rw [← withdrawOffers_behind]
  simp [behind, Hw.setHtu, Htu.engage]

theorem endRebuild_behind : endRebuild (behind cs h) = behind cs (endRebuild h) := by
  unfold endRebuild
  refine ite_behind ?_ rfl
  exact raiseEvent_behind cs { h with
    htu := { h.htu with rebuildTimer := none }, scu := { h.scu with station := .online } } _

theorem continueRebuild_behind (g : Purge) : continueRebuild g (behind cs h) = behind cs (continueRebuild g h) := by
  unfold continueRebuild
  refine ite_behind ?_ rfl
  rw [raiseEvent_behind]
  split
  · exact startPurge_behind cs _ _ _ _ _
  · exact endRebuild_behind cs _

theorem endPurge_behind (g : Purge) : endPurge g (behind cs h) = behind cs (endPurge g h) := by
  unfold endPurge
  rw [queueEvict_behind, refill_behind]
  generalize refill Config.postedLimit (queueEvict g h) = k
  show continueRebuild g (evaluateTouched g.touched
    (behind cs (k.setHtu { k.htu with purge := none, engaged := .free }))) = _
  rw [evaluateTouched_behind, continueRebuild_behind]

end Sys2Proof.Machine
end

section
/-! O31: a decision applied at the completion of its transaction, and the claims that waited for the home (R23, R24, R53,
R54, R64). -/

namespace Sys2Proof.Machine

variable {s : State} {h : Hw} {r : TxRecord} {x : Transaction} {o : Lines} {d : Decision}

/-! ### What a completion does before its deliveries, behind the claims that wait -/

section

variable (cs : List Claim) (h : Hw)

theorem enterDuplicate_behind : enterDuplicate (behind cs h) = behind cs (enterDuplicate h) := by
  unfold enterDuplicate
  rw [← raiseEvent_behind]
  rfl

theorem sighting_behind (w : StationId) (b : Bool) : sighting w b (behind cs h) = behind cs (sighting w b h) := by
  unfold sighting
  refine ite_behind rfl (ite_behind rfl ?_)
  simp only [behind_scu]
  split
  · exact enterDuplicate_behind cs h
  · exact enterDuplicate_behind cs h
  all_goals rfl

theorem peerAbsent_behind (p : StationId) : peerAbsent p (behind cs h) = behind cs (peerAbsent p h) :=
  ite_behind rfl rfl

theorem membershipCompleted_behind (r : TxRecord) (y : BusOutcome) :
    membershipCompleted r y (behind cs h) = behind cs (membershipCompleted r y h) := by
  unfold membershipCompleted
  split
  · exact ite_behind (peerAbsent_behind cs h _) (sighting_behind cs h _ _)
  · exact sighting_behind cs h _ _

end

/-- The station as a completion's deliveries find it. -/
def atDelivery (r : TxRecord) (o : Lines) (h : Hw) : Hw := membershipCompleted r (outcomeAt r o) (closeRecord h)

theorem atDelivery_behind (cs : List Claim) : atDelivery r o (behind cs h) = behind cs (atDelivery r o h) :=
  membershipCompleted_behind cs (closeRecord h) r _

theorem atDelivery_htu : (atDelivery r o h).htu = h.htu := by
  obtain ⟨-, hh, -⟩ := membershipCompleted_frame r (outcomeAt r o) (closeRecord h)
  exact hh

/-! ### The taking of the claims that waited (R23, R53) -/

/-- The home with no claim waiting. -/
def bare (h : Hw) : Hw := h.setHtu { h.htu with claims := [] }

theorem behind_bare (h : Hw) : behind h.htu.claims (bare h) = h := by
  simp [behind, bare, Hw.setHtu]

/-- With no claim waiting none is taken. -/
theorem takesWaiting_none {c : Instr} {t : State} (hc : s.hw.htu.claims = []) (he : exec c s = .next t) :
    takesWaiting c s [] := by
  have hs : s.withClaims [] = s := by
    unfold State.withClaims
    rw [← hc]
  refine ⟨t, t, t.hw.htu.arriving, hs ▸ he, he, by simp, ?_⟩
  rw [hc]
  simp [claimsTaken]

theorem claimsReady_behind {cs : List Claim} (hc : h.htu.claims = [])
    (he : .rebuildExpiry ∈ cs → h.htu.rebuildTimer = none) : claimsReady (behind cs h) :=
  fun _ hm => he (by simpa [hc] using hm)

/-- A command that frees the home, blind to the claims that wait, and takes those. -/
theorem takesWaiting_of_freed {c : Instr} {u : Hw} (hr : claimsReady (behind s.hw.htu.claims u))
    (hu : exec c (s.withClaims []) = .next { s with hw := u })
    (ht : exec c s = .next { s with hw := takeWaiting s.hw.htu.claims.length (behind s.hw.htu.claims u) }) :
    takesWaiting c s [] := by
  refine ⟨_, _, u.htu.arriving, hu, ht, by simp, ?_⟩
  have hk := takeWaiting_taken s.pending s.hw.htu.claims.length hr
  simpa [behind, Hw.setHtu] using hk

/-- An engagement ends with the taking of the claims that waited, where the work before it is blind to them. -/
theorem endEngagement_behind {cs : List Claim} {f : Hw → Hw} (hf : ∀ g, f (behind cs g) = behind cs (f g))
    (hc : h.htu.claims = []) :
    endEngagement f (behind cs h) = takeWaiting cs.length (behind cs (endEngagement f h)) := by
  have hcs : (behind cs h).htu.claims = cs := by simp [hc]
  rw [endEngagement_idle hc, ← hf, endEngagement, hcs]
  rfl

/-- What an own GRANT leaves at a home where claims wait: its outcome stands behind them (R64). -/
theorem grantCompleted_behind {cs : List Claim} {y : BusOutcome} (hy : y ≠ .void) (hn : cs ≠ [])
    (hc : h.htu.claims = []) :
    grantCompleted x y (behind cs h) = takeWaiting (cs.length + 1)
      (behind (cs ++ [.grantOutcome x.target x.targetSlot x.lock x.mode y])
        ((departGrant h).setHtu (departGrant h).htu.freed)) := by
  simp only [grantCompleted, if_neg hy, departGrant_behind]
  rw [if_neg (by simp [hn])]
  simp [endEngagement, behind, Hw.setHtu, hc, Htu.freed]

theorem atDelivery_bare (r : TxRecord) (o : Lines) (h : Hw) :
    atDelivery r o h = behind h.htu.claims (atDelivery r o (bare h)) := by
  rw [← atDelivery_behind, behind_bare]

theorem atDelivery_bare_claims : (atDelivery r o (bare h)).htu.claims = [] := by
  rw [atDelivery_htu]
  rfl

/-- What the end of an engagement does, claims waiting or none. -/
def answeredWork (o : BusOutcome) (d : Option Decision) : Hw → Hw := if o = .void then id else applyDecision d

theorem answeredWork_behind (y : BusOutcome) (d : Option Decision) (cs : List Claim) (g : Hw) :
    answeredWork y d (behind cs g) = behind cs (answeredWork y d g) := by
  unfold answeredWork
  split
  · rfl
  · exact applyDecision_behind cs g d

/-- A lock transaction's responder applies its decision, if any, and then takes the claims that waited. -/
theorem takesWaiting_answered {ef : Bool} (hat : atCompletion s r) (hx : recordRequest r = some x)
    (hrole : r.role = .responder) (hk : x.kind ≠ .grant)
    (he : .rebuildExpiry ∈ s.hw.htu.claims → s.hw.htu.rebuildTimer = none) :
    takesWaiting (.completion o ef) s [] := by
  have hexec : ∀ z : State, atCompletion z r → exec (.completion o ef) z = .next { z with
      hw := endEngagement (answeredWork (outcomeAt r o) z.hw.htu.decision) (atDelivery r o z.hw) } := by
    intro z hz
    rw [exec_completion hz]
    simp only [deliver, hrole, hx, responderCompleted, if_neg hk]
    rw [← atDelivery, atDelivery_htu]
    rfl
  have hwork := answeredWork_behind (outcomeAt r o) s.hw.htu.decision
  have hfree := endEngagement_behind (cs := s.hw.htu.claims) (hwork _)
    (atDelivery_bare_claims (r := r) (o := o) (h := s.hw))
  rw [← atDelivery_bare] at hfree
  refine takesWaiting_of_freed
    (u := endEngagement (answeredWork _ s.hw.htu.decision) (atDelivery r o (bare s.hw))) ?ready
    (hexec (s.withClaims []) hat) (hfree ▸ hexec s hat)
  rw [endEngagement_idle atDelivery_bare_claims, ← hwork]
  have hhtu : (behind s.hw.htu.claims (atDelivery r o (bare s.hw))).htu = s.hw.htu := by
    rw [← atDelivery_bare, atDelivery_htu]
  have hready := claimsReady_table.answeredWork (g := behind s.hw.htu.claims (atDelivery r o (bare s.hw)))
    (outcomeAt r o) (by rw [hhtu]; exact fun _ => he) (by rw [hhtu]; exact fun _ _ _ => he)
  have hdec : (behind s.hw.htu.claims (atDelivery r o (bare s.hw))).htu.decision = s.hw.htu.decision := by rw [hhtu]
  rw [hdec] at hready
  exact hready

/-- An own GRANT frees the home, which then takes the claims that waited, its outcome behind them (R64). -/
theorem takesWaiting_granted {ef : Bool} (hat : atCompletion s r) (hrole : r.role = .initiator)
    (hx : r.entry = some x) (hk : x.kind = .grant)
    (he : .rebuildExpiry ∈ s.hw.htu.claims → s.hw.htu.rebuildTimer = none) :
    takesWaiting (.completion o ef) s
      (if x.kind = .grant ∧ outcomeAt r o ≠ .void ∧ s.hw.htu.claims ≠ [] then
        [.grantOutcome x.target x.targetSlot x.lock x.mode (outcomeAt r o)]
      else []) := by
  have hexec : ∀ z : State, atCompletion z r → exec (.completion o ef) z = .next { z with
      hw := grantCompleted x (outcomeAt r o) (atDelivery r o z.hw) } := by
    intro z hz
    rw [exec_completion hz]
    simp only [deliver, hrole, hx, initiatorCompleted, hk]
    rfl
  have hbare := atDelivery_bare_claims (r := r) (o := o) (h := s.hw)
  by_cases hc : s.hw.htu.claims = []
  · rw [if_neg fun hn => hn.2.2 hc]
    exact takesWaiting_none hc (hexec s hat)
  have hs := hexec s hat
  have hu : exec (.completion o ef) (s.withClaims []) =
      .next { s with hw := grantCompleted x (outcomeAt r o) (atDelivery r o (bare s.hw)) } :=
    hexec (s.withClaims []) hat
  have hhtu : (atDelivery r o (bare s.hw)).htu = (bare s.hw).htu := atDelivery_htu
  rw [atDelivery_bare] at hs
  generalize atDelivery r o (bare s.hw) = g at hbare hs hu hhtu
  by_cases hv : outcomeAt r o = .void
  · rw [if_neg fun hn => hn.2.1 hv]
    simp only [grantCompleted, if_pos hv] at hs hu
    have hfree : endEngagement id (returnPriority x (behind s.hw.htu.claims g)) = _ :=
      endEngagement_behind (h := returnPriority x g) (cs := s.hw.htu.claims) (f := id) (fun _ => rfl) hbare
    rw [hfree] at hs
    refine takesWaiting_of_freed ?_ hu hs
    rw [endEngagement_idle (h := returnPriority x g) hbare]
    exact claimsReady_behind hbare (by simpa [hhtu, bare] using he)
  · rw [if_pos ⟨hk, hv, hc⟩]
    rw [grantCompleted_behind hv hc hbare] at hs
    rw [grantCompleted_unvoided hv (by simpa using hbare)] at hu
    refine ⟨_, _, (departGrant g).htu.arriving, hu, hs, ?_, ?_⟩
    · rw [addClaim_htu, receive_atFree rfl]
      rfl
    · have hk := takeWaiting_taken (h := behind (s.hw.htu.claims ++
          [.grantOutcome x.target x.targetSlot x.lock x.mode (outcomeAt r o)])
          ((departGrant g).setHtu (departGrant g).htu.freed)) s.pending (s.hw.htu.claims.length + 1)
        (claimsReady_behind (by simpa [Htu.freed] using hbare) (by simpa [hhtu, bare, Htu.freed] using he))
      simpa [behind, Hw.setHtu, addClaim, Htu.freed, hbare, receive_atFree] using hk

/-- At each of these completions the home freed takes the claims that waited (R23, R53). -/
theorem completion_takesWaiting {ef : Bool} (hat : atCompletion s r) (hx : recordRequest r = some x)
    (hrole : (r.role = .responder ∧ x.kind.isLock = true)
      ∨ (r.role = .initiator ∧ r.entry = some x ∧ x.kind = .grant))
    (he : .rebuildExpiry ∈ s.hw.htu.claims → s.hw.htu.rebuildTimer = none) :
    takesWaiting (.completion o ef) s
      (if x.kind = .grant ∧ outcomeAt r o ≠ .void ∧ s.hw.htu.claims ≠ [] then
        [.grantOutcome x.target x.targetSlot x.lock x.mode (outcomeAt r o)]
      else []) := by
  obtain ⟨hr, hl⟩ | ⟨hr, hentry, hk⟩ := hrole
  · have hk : x.kind ≠ .grant := fun hg => by simp [hg, Kind.isLock] at hl
    rw [if_neg fun hn => hk hn.1]
    exact takesWaiting_answered hat hx hr hk he
  · exact takesWaiting_granted hat hr hentry hk he

end Sys2Proof.Machine
end

section
/-! O31, its first part: what a decision changes at the completion of its transaction (R24, R51, R54). -/

namespace Sys2Proof.Machine

variable {s : State} {h : Hw} {r : TxRecord} {x : Transaction} {o : Lines} {d : Decision}

/-- The home as it makes the decision of a peer's transaction: the record closed, the winner sighted, the home free. -/
def decidedAt (w : StationId) (h : Hw) : Hw := (peerSeen w h).setHtu h.htu.freed

/-- The unvoided completion of a peer's lock transaction makes its decision. -/
theorem exec_decision {ef : Bool} (hat : atCompletion s r) (hv : ¬voided r o) (hrole : r.role = .responder)
    (hw : r.winner ≠ s.hw.id) (hx : recordRequest r = some x) (hk : x.kind.isLock = true)
    (hd : r.responded = some true) (hy : r.response = some d.response) (hdec : s.hw.htu.decision = some d)
    (hc : s.hw.htu.claims = []) :
    exec (.completion o ef) s = .next { s with hw := applyChanges d.changes id (decidedAt r.winner s.hw) } := by
  have hresponse : x.kind.hasResponse = true := by
    revert hk
    cases x.kind <;> simp [Kind.isLock, Kind.hasResponse]
  have hgrant : x.kind ≠ .grant := fun he => by simp [he, Kind.isLock] at hk
  have hidle : (peerSeen r.winner s.hw).htu.claims = [] := hc
  have hdec' : (peerSeen r.winner s.hw).htu.decision = some d := hdec
  rw [exec_responderCompletion hat hrole hw hx (.inl (by rw [outcomeAt_answered hx hresponse hd hy hv]; simp)) ef,
    outcomeAt_answered hx hresponse hd hy hv]
  simp only [responderCompleted, if_neg hgrant, endEngagement_idle hidle, hdec', reduceCtorEq, if_false]
  rfl

/-! ### Decisions that change one thing -/

theorem change_none (t : Htu) : t.change {} = t := by
  simp [Htu.change, Htu.without]

theorem change_addHolder (t : Htu) (e : Holder) :
    t.change { addHolder := some e } = { t with holders := t.holders ++ [e] } := by
  simp [Htu.change, Htu.without]

theorem change_addWaiter (t : Htu) (w : Waiter) :
    t.change { addWaiter := some w } = { t with waiters := t.waiters ++ [w] } := by
  simp [Htu.change, Htu.without]

theorem change_dropHolder (t : Htu) (e : Holder) :
    t.change { dropHolders := [e] } = { t with holders := t.holders.filter fun y => y ≠ e } := by
  simp [Htu.change, Htu.without]

theorem change_share (t : Htu) (e : Holder) :
    t.change { share := some e } =
      { t with holders := t.holders.map fun y => if y = e then { y with mode := .shared } else y } := by
  simp [Htu.change, Htu.without]

theorem change_dropWaiter (t : Htu) (w : Waiter) :
    t.change { dropWaiters := [w] } = { t with waiters := t.waiters.filter fun y => y ≠ w } := by
  simp [Htu.change, Htu.without]

theorem change_unawait (t : Htu) (p : StationId) : t.change { unawait := some p } = t := by
  simp [Htu.change, Htu.without]

/-- A decision that changes nothing is followed by no evaluation. -/
theorem applyChanges_none : applyChanges {} id h = h := by
  rw [applyChanges_plain rfl, decided, change_none, withdrawOffers_none rfl]
  simp [Changes.touched, evaluateChanged, Hw.setHtu]

/-- A decision that withdraws no offer and makes none. -/
theorem applyChanges_quiet {c : Changes} (hn : c.unawait = none) (hs : h.htu.stalled = [])
    (hno : c.dropHolders.filter (·.state = .offered) = []) (hd : ∀ i, ¬offerDue i (h.htu.change c)) :
    applyChanges c id h = h.setHtu (h.htu.change c) := by
  rw [applyChanges_plain hn, decided_quiet hs hno hd]

theorem no_offerDue_of_conflict {t : Htu} {w : Waiter} (hw : t.waiters = [w])
    (hc : ∃ e ∈ t.holders, e.index = w.index ∧ ¬(w.mode = .shared ∧ e.mode = .shared)) (i : LockIndex) :
    ¬offerDue i t := by
  rintro ⟨v, hhead, hcompat⟩
  have hv : v = w ∧ w.index = i := by
    simp only [headWaiter, hw, List.find?_cons, List.find?_nil] at hhead
    split at hhead <;> simp_all
  obtain ⟨rfl, rfl⟩ := hv
  obtain ⟨e, he, hi, hm⟩ := hc
  simp only [compatible, List.all_eq_true, decide_eq_true_iff] at hcompat
  exact hm (hcompat e (List.mem_filter.mpr ⟨he, by simpa using hi⟩))

/-- A posted offer withdrawn with its GRANT, where no offer stands in the backlog (R15, R16). -/
theorem withdrawOffer_grant {e : Holder} (hp : e.posted = some true)
    (hg : ∃ y ∈ h.lbc.priority, isGrantTo e.station e.slot (lockAt h.id e.index) y = true) (hb : h.htu.backlog = []) :
    withdrawOffer e h = { h with
      htu := { h.htu with posted := h.htu.posted - 1 }
      lbc := { h.lbc with
        priority := h.lbc.priority.filter fun y => !isGrantTo e.station e.slot (lockAt h.id e.index) y } } := by
  simp only [withdrawOffer, hp, if_pos (List.any_eq_true.mpr hg)]
  exact departGrant_still (h := removePriority (isGrantTo e.station e.slot (lockAt h.id e.index)) h) (.inr hb)

/-! ### Their completions, where no lock is stalled and no waiter is left to be offered -/

section

variable (hs : h.htu.stalled = [])
include hs

theorem applyChanges_addHolder (hw : h.htu.waiters = []) (e : Holder) :
    applyChanges { addHolder := some e } id h = h.setHtu { h.htu with holders := h.htu.holders ++ [e] } := by
  rw [← change_addHolder]
  exact applyChanges_quiet rfl hs rfl (no_offerDue_of_empty (by rw [change_addHolder]; exact hw))

theorem applyChanges_addWaiter {w : Waiter} (hw : h.htu.waiters = [])
    (hc : ∃ e ∈ h.htu.holders, e.index = w.index ∧ ¬(w.mode = .shared ∧ e.mode = .shared)) :
    applyChanges { addWaiter := some w } id h = h.setHtu { h.htu with waiters := [w] } := by
  have hch : h.htu.change { addWaiter := some w } = { h.htu with waiters := [w] } := by
    rw [change_addWaiter, hw]
    rfl
  rw [← hch]
  exact applyChanges_quiet rfl hs rfl (no_offerDue_of_conflict (by rw [hch]) (by rw [hch]; exact hc))

theorem applyChanges_share (hw : h.htu.waiters = []) (e : Holder) :
    applyChanges { share := some e } id h = h.setHtu
      { h.htu with holders := h.htu.holders.map fun y => if y = e then { y with mode := .shared } else y } := by
  rw [← change_share]
  exact applyChanges_quiet rfl hs rfl (no_offerDue_of_empty (by rw [change_share]; exact hw))

theorem applyChanges_dropWaiter {w : Waiter} (hw : h.htu.waiters = [w]) :
    applyChanges { dropWaiters := [w] } id h = h.setHtu { h.htu with waiters := [] } := by
  have hch : h.htu.change { dropWaiters := [w] } = { h.htu with waiters := [] } := by
    rw [change_dropWaiter, hw]
    simp
  rw [← hch]
  exact applyChanges_quiet rfl hs rfl (no_offerDue_of_empty (by rw [hch]))

theorem applyChanges_dropHeld {e : Holder} (hw : h.htu.waiters = []) (he : e.state = .held) :
    applyChanges { dropHolders := [e] } id h = h.setHtu
      { h.htu with holders := h.htu.holders.filter fun y => y ≠ e } := by
  rw [← change_dropHolder]
  exact applyChanges_quiet rfl hs (by simp [he]) (no_offerDue_of_empty (by rw [change_dropHolder]; exact hw))

/-- An offer withdrawn changes neither the waiters nor the stalled locks, so that its decision makes no offer. -/
theorem applyChanges_dropOffered {e : Holder} (hw : h.htu.waiters = []) (ho : e.state = .offered) :
    applyChanges { dropHolders := [e] } id h =
      withdrawOffer e (h.setHtu { h.htu with holders := h.htu.holders.filter fun y => y ≠ e }) := by
  rw [applyChanges_plain rfl, decided, withdrawOffers_one (e := e) (by simp [ho]), change_dropHolder]
  refine evaluateChanged_quiet (no_offerDue_of_empty ?_) ?_ _
  · simpa using hw
  · simpa using hs

theorem applyChanges_dropPosted {e : Holder} (hw : h.htu.waiters = []) (ho : e.state = .offered)
    (hp : e.posted = some true) (hb : h.htu.backlog = [])
    (hg : ∃ y ∈ h.lbc.priority, isGrantTo e.station e.slot (lockAt h.id e.index) y = true) :
    applyChanges { dropHolders := [e] } id h = { h with
      htu := { h.htu with holders := h.htu.holders.filter fun y => y ≠ e, posted := h.htu.posted - 1 }
      lbc := { h.lbc with
        priority := h.lbc.priority.filter fun y => !isGrantTo e.station e.slot (lockAt h.id e.index) y } } := by
  rw [applyChanges_dropOffered hs hw ho]
  exact withdrawOffer_grant (h := h.setHtu { h.htu with holders := h.htu.holders.filter fun y => y ≠ e }) hp hg hb

end

/-- A decision that takes a station from the awaited set of a home that rebuilds (R137, R138). -/
theorem applyChanges_unawait (p : StationId) : applyChanges { unawait := some p } id h = unawait p h := by
  simp only [applyChanges, unawaitOption, change_unawait, withdrawOffers_none (es := []) rfl]
  simp [Changes.touched, evaluateChanged, Hw.setHtu]

theorem unawait_left {p : StationId} (hs : h.scu.station = .rebuilding) (ha : h.htu.awaited.getLsbD p.val = true)
    (hl : h.htu.awaited &&& ~~~(stationBit p) ≠ 0) :
    unawait p h = h.setHtu { h.htu with awaited := h.htu.awaited &&& ~~~(stationBit p) } := by
  simp only [unawait, if_pos (⟨by simp [Hw.home, hs, StationState.home], ha⟩ : h.home = .rebuilding ∧ _), if_neg hl]

theorem unawait_last {p : StationId} (hs : h.scu.station = .rebuilding) (ha : h.htu.awaited.getLsbD p.val = true)
    (hl : h.htu.awaited &&& ~~~(stationBit p) = 0) :
    unawait p h = raiseEvent .online { h with
      htu := { h.htu with awaited := 0, rebuildTimer := none }, scu := { h.scu with station := .online } } := by
  simp only [unawait, if_pos (⟨by simp [Hw.home, hs, StationState.home], ha⟩ : h.home = .rebuilding ∧ _), if_pos hl]

/-- Settles O31: the decision by what it changes, and the claims that waited by the role. -/
theorem decisionAppliedAtCompletion : Obligations.DecisionAppliedAtCompletion := by
  unfold Obligations.DecisionAppliedAtCompletion
  refine ⟨?decision, fun s r x o ef hat hx hrole he => completion_takesWaiting hat hx hrole he⟩
  intro s r x o ef d hat hv hrole hw hx hk hd hy hdec hc closed none' becomes
  have hexec := exec_decision (ef := ef) hat hv hrole hw hx hk hd hy hdec hc
  refine ⟨fun hs => ⟨fun hch => ?none, fun e hch hwait => ?holder, fun w hch hwait hcon => ?waiter,
    fun e hch hwait => ⟨fun ho => ?held, fun ho hp => ?backlog, fun ho hp hb => ?posted⟩,
    fun e hch hwait => ?share, fun w hch hwait => ?unqueue,
    fun p hch hreb haw => ⟨fun hl => ?left, fun hl => ?last⟩⟩, fun hn => ?made⟩
  case made =>
    rw [applyChanges_plain hn] at hexec
    exact ⟨_, hexec, decided_made _ _⟩
  all_goals rw [hch] at hexec
  case none =>
    rw [applyChanges_none] at hexec
    exact ⟨_, hexec, rfl, rfl, rfl, rfl, rfl, rfl⟩
  case holder =>
    rw [applyChanges_addHolder (h := decidedAt r.winner s.hw) hs hwait] at hexec
    exact ⟨_, hexec, rfl, rfl, rfl, rfl, rfl, rfl⟩
  case waiter =>
    rw [applyChanges_addWaiter (h := decidedAt r.winner s.hw) hs hwait hcon] at hexec
    exact ⟨_, hexec, rfl, rfl, rfl, rfl, rfl, rfl⟩
  case held =>
    rw [applyChanges_dropHeld (h := decidedAt r.winner s.hw) hs hwait ho] at hexec
    exact ⟨_, hexec, rfl, rfl, rfl, rfl, rfl, rfl⟩
  case backlog =>
    rw [applyChanges_dropOffered (h := decidedAt r.winner s.hw) hs hwait ho, withdrawOffer_backlog hp] at hexec
    exact ⟨_, hexec, rfl, rfl, rfl, rfl, rfl, rfl⟩
  case posted =>
    intro grant hg
    have hkey : ∀ y, isGrantTo e.station e.slot (lockAt s.hw.id e.index) y = true ↔ grant y := by
      simp [grant, isGrantTo, and_assoc]
    obtain ⟨y, hy, hgy⟩ := hg
    rw [applyChanges_dropPosted (h := decidedAt r.winner s.hw) hs hwait ho hp hb ⟨y, hy, (hkey y).mpr hgy⟩] at hexec
    refine ⟨_, hexec, rfl, ?_, rfl, rfl, rfl, rfl⟩
    refine congrArg (fun l => { closed with priority := l }) (List.filter_congr fun y _ => ?_)
    rw [Bool.eq_iff_iff, decide_eq_true_iff, ← hkey, Bool.not_eq_true', Bool.not_eq_true]
    rfl
  case share =>
    rw [applyChanges_share (h := decidedAt r.winner s.hw) hs hwait] at hexec
    exact ⟨_, hexec, rfl, rfl, rfl, rfl, rfl, rfl⟩
  case unqueue =>
    rw [applyChanges_dropWaiter (h := decidedAt r.winner s.hw) hs hwait] at hexec
    exact ⟨_, hexec, rfl, rfl, rfl, rfl, rfl, rfl⟩
  case left =>
    rw [applyChanges_unawait, unawait_left (h := decidedAt r.winner s.hw) hreb haw hl] at hexec
    exact ⟨_, hexec, rfl, rfl, rfl, rfl, rfl, rfl⟩
  case last =>
    rw [applyChanges_unawait, unawait_last (h := decidedAt r.winner s.hw) hreb haw hl] at hexec
    refine ⟨_, hexec, ?_⟩
    simp only [raiseEvent_htu, raiseEvent_lbc, raiseEvent_scu, raiseEvent_rqt, raiseEvent_events]
    exact ⟨rfl, rfl, rfl, rfl, rfl⟩

end Sys2Proof.Machine
end

section
/-! O44: the end of a purge (R13, R14, R21, R22, R139), and the claims that waited for it (R23, R53). -/

namespace Sys2Proof.Machine

variable {s : State} {h : Hw} {g : Purge}

/-! ### Evaluations raise no event -/

theorem answered_events (h : Hw) : AnswerKept fun t => t.cqu.events = h.cqu.events where
  holds _ hp := hp
  slot _ _ hp := hp
  ended _ _ _ _ hp := by simpa using hp
  placed _ hp := hp
  claimed _ hp := hp
  responses _ hp := hp
  walk hp := by simpa using hp

theorem offer_events (w : Waiter) (h : Hw) : (offer w h).cqu.events = h.cqu.events := by
  unfold offer
  split
  · exact (answered_events h).internalOffer _ _ rfl
  · split <;> rfl

theorem stall_events (i : LockIndex) (h : Hw) : (stall i h).cqu.events = h.cqu.events := by
  unfold stall
  split <;> rfl

theorem evaluateFrom_events (i : LockIndex) (k : Nat) (h : Hw) :
    (evaluateFrom i k h).cqu.events = h.cqu.events := by
  induction k generalizing h with
  | zero => rfl
  | succ k ih =>
    unfold evaluateFrom
    split
    · rfl
    · split
      · split
        · rw [ih, offer_events]
        · exact stall_events i h
      · rfl

theorem foldl_events {f : Hw → LockIndex → Hw} (hf : ∀ t i, (f t i).cqu.events = t.cqu.events) (l : List LockIndex)
    (h : Hw) : (l.foldl f h).cqu.events = h.cqu.events :=
  List.foldlRecOn (motive := fun t : Hw => t.cqu.events = h.cqu.events) _ _ rfl fun t ht i _ => (hf t i).trans ht

theorem evaluate_events (i : LockIndex) (h : Hw) : (evaluate i h).cqu.events = h.cqu.events :=
  evaluateFrom_events i _ h

theorem evaluateTouched_events (l : List LockIndex) (h : Hw) :
    (evaluateTouched l h).cqu.events = h.cqu.events := by
  unfold evaluateTouched stalledPass
  split
  · rw [foldl_events fun t i => ?_, foldl_events fun t i => evaluate_events i t]
    split
    · exact evaluate_events i t
    · rfl
  · rfl

/-! ### The home closed behind its purge (R21, R22) -/

/-- What the end of a purge leaves until its evaluations. -/
theorem purgeClosed_frame (g : Purge) (h : Hw) :
    (purgeClosed g h).scu = h.scu ∧ (purgeClosed g h).mbu = h.mbu ∧ (purgeClosed g h).port = h.port
      ∧ (purgeClosed g h).rqt = h.rqt ∧ (purgeClosed g h).cqu = h.cqu
      ∧ (purgeClosed g h).htu.claims = h.htu.claims ∧ (purgeClosed g h).htu.arriving = h.htu.arriving
      ∧ (purgeClosed g h).htu.rebuildTimer = h.htu.rebuildTimer
      ∧ (purgeClosed g h).htu.stalled = h.htu.stalled := by
  have hq : evictQueued g h = queueEvict g h := (queueEvict_eq_evictQueued g h).symm
  unfold purgeClosed
  rw [hq]
  unfold queueEvict
  split <;> exact ⟨rfl, rfl, rfl, rfl, rfl, rfl, rfl, rfl, rfl⟩

/-- The end of a purge is its closing, the evaluations, and what follows a purge of a rebuild expiry. -/
theorem endPurge_closed (g : Purge) (h : Hw) :
    endPurge g h = continueRebuild g (evaluateTouched g.touched (purgeClosed g h)) := by
  rw [endPurge, queueEvict_eq_evictQueued,
    refill_eq_refilled Config.postedLimit (evictQueued g h) (by unfold Config.postedLimit; omega)]
  rfl

theorem exec_purgeEnd (hp : s.hw.htu.purge = some g) :
    exec .purgeEnd s = .next { s with hw := takeWaiting s.hw.htu.claims.length (endPurge g s.hw) } := by
  show acts finishPurge s = _
  simp only [acts_eq, finishPurge, hp]

theorem exec_purgeEnd_idle (hp : s.hw.htu.purge = some g) (hc : s.hw.htu.claims = []) :
    exec .purgeEnd s = .next { s with hw := endPurge g s.hw } := by
  rw [exec_purgeEnd hp, hc]
  rfl

theorem continueRebuild_not (hr : g.rebuild = false) (h : Hw) : continueRebuild g h = h := by
  simp [continueRebuild, hr]

theorem continueRebuild_last (hr : g.rebuild = true) (hl : g.rest = []) (h : Hw) :
    continueRebuild g h = endRebuild (raiseEvent (.rebuildEvicted g.station) h) := by
  simp [continueRebuild, hr, hl]

theorem continueRebuild_next (hr : g.rebuild = true) {p : StationId} {rest : List StationId} (hl : g.rest = p :: rest)
    (h : Hw) : continueRebuild g h = startPurge p true true rest (raiseEvent (.rebuildEvicted g.station) h) := by
  simp [continueRebuild, hr, hl]

/-! ### The claims that waited (R23, R53) -/

theorem claimsReady_engaged (he : h.htu.engaged ≠ .free) : claimsReady h := fun hf => absurd hf he

theorem startPurge_engaged (p : StationId) (ev rb : Bool) (rest : List StationId) (h : Hw) :
    (startPurge p ev rb rest h).htu.engaged = .purge := by
  obtain ⟨k, he, -⟩ := startPurge_walked (h := h) p ev rb rest
  rw [he]
  rfl

theorem claimsReady_endRebuild (hr : claimsReady h) : claimsReady (endRebuild h) := by
  unfold endRebuild
  split
  · intro _ _
    simp
  · exact hr

theorem claimsReady_continueRebuild (hr : claimsReady h) : claimsReady (continueRebuild g h) := by
  unfold continueRebuild
  split
  · dsimp only
    split
    · exact claimsReady_engaged (by simp [startPurge_engaged])
    · exact claimsReady_endRebuild (claimsReady_table.raiseEvent _ hr)
  · exact hr

theorem claimsReady_endPurge (he : .rebuildExpiry ∈ h.htu.claims → h.htu.rebuildTimer = none) :
    claimsReady (endPurge g h) := by
  obtain ⟨-, -, -, -, -, hc, -, ht, -⟩ := purgeClosed_frame g h
  rw [endPurge_closed]
  have hr : claimsReady (purgeClosed g h) := fun _ => by rwa [hc, ht]
  exact claimsReady_continueRebuild (claimsReady_table.evaluateTouched _ hr rfl).1

theorem purgeEnd_takesWaiting (hp : s.hw.htu.purge = some g)
    (he : .rebuildExpiry ∈ s.hw.htu.claims → s.hw.htu.rebuildTimer = none) : takesWaiting .purgeEnd s [] := by
  have hb : endPurge g s.hw = behind s.hw.htu.claims (endPurge g (bare s.hw)) := by
    rw [← endPurge_behind, behind_bare]
  have hs := exec_purgeEnd hp
  rw [hb] at hs
  exact takesWaiting_of_freed (hb ▸ claimsReady_endPurge he)
    (exec_purgeEnd_idle (s := s.withClaims []) hp rfl) hs

/-! ### With an empty backlog, and no lock stalled or waited for -/

theorem evictQueued_htu (g : Purge) (h : Hw) : (evictQueued g h).htu = h.htu := by
  rw [← queueEvict_eq_evictQueued, PurgeKept.queueEvict_htu]

theorem purgeClosed_of_empty (hb : h.htu.backlog = []) :
    purgeClosed g h = (evictQueued g h).setHtu { h.htu with purge := none, engaged := .free } := by
  rw [purgeClosed, refilled_of_empty (evictQueued g h) (by rwa [evictQueued_htu]), evictQueued_htu]
  rfl

/-- A purge with no offer to post and none to make ends with its EVICT alone. -/
theorem endPurge_quiet (hr : g.rebuild = false) (hb : h.htu.backlog = []) (hw : h.htu.waiters = [])
    (hs : h.htu.stalled = []) :
    endPurge g h = (evictQueued g h).setHtu { h.htu with purge := none, engaged := .free } := by
  rw [endPurge_closed, continueRebuild_not hr, purgeClosed_of_empty hb]
  exact evaluateTouched_quiet (h := (evictQueued g h).setHtu { h.htu with purge := none, engaged := .free })
    (no_offerDue_of_empty hw) hs _

/-! ### The evaluations at a home that serves -/

/-- What the evaluations after a purge leave alone. -/
theorem evaluateTouched_beside (l : List LockIndex) (h : Hw) : besideTables h (evaluateTouched l h) := by
  obtain ⟨-, hp⟩ | ⟨-, he⟩ := evaluateTouched_cases l h
  · exact hp.offering.beside
  · rw [he]
    exact besideTables.refl h

/-- The home behind a purge and its evaluations. -/
def purgeEvaluated (g : Purge) (h : Hw) : Hw := evaluateTouched g.touched (purgeClosed g h)

theorem purgeEvaluated_beside (g : Purge) (h : Hw) :
    (purgeEvaluated g h).htu.engaged = .free ∧ (purgeEvaluated g h).htu.purge = none
      ∧ sameOutside h (purgeEvaluated g h) ∧ (purgeEvaluated g h).cqu.events = h.cqu.events := by
  obtain ⟨he, hp, -, -, -, -, -, hs, hm, ho⟩ := evaluateTouched_beside g.touched (purgeClosed g h)
  obtain ⟨hscu, hmbu, hport, -, hcqu, -⟩ := purgeClosed_frame g h
  exact ⟨he, hp, ⟨hs.trans hscu, hm.trans hmbu, ho.trans hport⟩, (evaluateTouched_events _ _).trans (by rw [hcqu])⟩

theorem purgeEvaluated_serving (hs : h.home = .serving) :
    Passed (· ∈ g.touched) (purgeClosed g h) (purgeEvaluated g h) := by
  have hh : (purgeClosed g h).home = .serving := (congrArg (·.station.home) (purgeClosed_frame g h).1).trans hs
  obtain ⟨-, hp⟩ | ⟨hn, -⟩ := evaluateTouched_cases g.touched (purgeClosed g h)
  · exact hp
  · exact absurd hh hn

theorem purgeEvaluated_of_not_serving (hs : h.home ≠ .serving) : purgeEvaluated g h = purgeClosed g h := by
  have hh : (purgeClosed g h).home ≠ .serving :=
    fun hc => hs ((congrArg (·.station.home) (purgeClosed_frame g h).1).symm.trans hc)
  exact if_neg hh

/-! ### What follows a purge of a rebuild expiry (R139) -/

/-- A raise concerns the queue and the events alone. -/
theorem raiseEvent_rest (ev : Event) (h : Hw) : raiseEvent ev h = { h with cqu := (raiseEvent ev h).cqu } := by
  unfold raiseEvent
  split <;> rfl

theorem endRebuild_of_ne (hs : h.scu.station ≠ .rebuilding) : endRebuild h = h := if_neg hs

/-- The end of a purge, without another purge behind it, at a home that serves. -/
theorem endPurge_serving (hs : h.home = .serving) (hg : g.rebuild = false ∨ g.rest = []) :
    endPurge g h =
      if g.rebuild = true then raiseEvent (.rebuildEvicted g.station) (purgeEvaluated g h)
      else purgeEvaluated g h := by
  rw [endPurge_closed, ← purgeEvaluated]
  split
  · next hr =>
    obtain ⟨-, -, ⟨hscu, -⟩, -⟩ := purgeEvaluated_beside g h
    rw [continueRebuild_last hr (hg.resolve_left (by simp [hr])), endRebuild_of_ne]
    rw [raiseEvent_scu, hscu]
    intro hc
    simp [Hw.home, hc, StationState.home] at hs
  · next hr => exact continueRebuild_not (by simpa using hr) _

/-- Events and queue aside, that end is the evaluations alone. -/
theorem endPurge_serving_rest (hs : h.home = .serving) (hg : g.rebuild = false ∨ g.rest = []) :
    endPurge g h = { purgeEvaluated g h with cqu := (endPurge g h).cqu } := by
  rw [endPurge_serving hs hg]
  split
  · exact raiseEvent_rest _ _
  · rfl

/-- The offers made at the end of a purge, its events beside. -/
theorem purgeEnd_serving {v t : Hw} (hs : h.home = .serving) (hv : v = purgeEvaluated g h)
    (ht : t = { v with cqu := t.cqu }) :
    let visited (i : LockIndex) : Prop := i ∈ g.touched ∨ i ∈ h.htu.stalled
    t.htu.purge = none ∧ t.htu.engaged = .free ∧ offersMade visited (purgeClosed g h) t
      ∧ (∀ i, visited i → noOfferDue i t) ∧ t.scu = h.scu ∧ ∃ new, offersTaken new (purgeClosed g h) v := by
  intro visited
  have hp := purgeEvaluated_serving (g := g) hs
  obtain ⟨he, hpu, ⟨hscu, -⟩, -⟩ := purgeEvaluated_beside g h
  obtain ⟨-, -, -, -, -, -, -, -, hst⟩ := purgeClosed_frame g h
  have hvisited : ∀ i, visited i ↔ i ∈ g.touched ∨ i ∈ (purgeClosed g h).htu.stalled := by
    intro i
    rw [hst]
  have hmade := (hp.offering.mono fun i hi => (hvisited i).mpr hi).made
  have hdue := fun i hi => hp.noOfferDue ((hvisited i).mp hi)
  rw [← hv] at he hpu hscu hmade hdue
  rw [ht]
  exact ⟨hpu, he, hmade, hdue, hscu, hv ▸ evaluateTouched_offersTaken (h := purgeClosed g h) g.touched⟩

end Sys2Proof.Machine
end

section
/-! O44 settled: the end of a purge by the home state, and by what its cause leaves to purge. -/

namespace Sys2Proof.Machine

variable {s : State} {g : Purge}

/-- The events behind the end of a purge: REBUILD_EVICTED after one of a rebuild expiry (R139). -/
def purgeEvents (g : Purge) (E : EventSet) : EventSet :=
  if g.rebuild = true then { E with rebuildEvicted := some g.station } else E

theorem purgeEvents_raise (hr : g.rebuild = true) (E : EventSet) :
    E.raise (.rebuildEvicted g.station) = purgeEvents g E := by
  simp [purgeEvents, hr, EventSet.raise]

/-- The end of a purge of a rebuild expiry, the last one, at a home that rebuilds (R139). -/
theorem endPurge_rebuilt {h : Hw} (hh : h.home = .rebuilding) (hr : g.rebuild = true) (hl : g.rest = []) :
    endPurge g h =
      raiseEvent .online
        (let raised := raiseEvent (.rebuildEvicted g.station) (purgeClosed g h)
         { raised with
            htu := { raised.htu with rebuildTimer := none }, scu := { raised.scu with station := .online } }) := by
  have hs : (raiseEvent (.rebuildEvicted g.station) (purgeClosed g h)).scu.station = .rebuilding := by
    rw [raiseEvent_scu, (purgeClosed_frame g h).1]
    exact HomeKept.rebuilding_of_home hh
  rw [endPurge_of_not_serving g h (by simp [hh]), continueRebuild_last hr hl, endRebuild, if_pos hs]

/-- The membership unit and the pins take no part in the end of a purge. -/
theorem endPurge_mbu_port (g : Purge) (h : Hw) : (endPurge g h).mbu = h.mbu ∧ (endPurge g h).port = h.port := by
  obtain ⟨-, -, ⟨-, hm, hp⟩, -⟩ := purgeEvaluated_beside g h
  rw [endPurge_closed, ← purgeEvaluated, continueRebuild]
  split
  · dsimp only
    split
    · next p rest _ =>
      obtain ⟨k, he, -⟩ :=
        startPurge_walked (h := raiseEvent (.rebuildEvicted g.station) (purgeEvaluated g h)) p true true rest
      rw [he]
      exact ⟨(raiseEvent_mbu _ _).trans hm, (raiseEvent_port _ _).trans hp⟩
    · unfold endRebuild
      split
      · simpa using ⟨hm, hp⟩
      · simpa using ⟨hm, hp⟩
  · exact ⟨hm, hp⟩

/-- The end of a purge that the next one of its rebuild expiry follows: that one's walk is made, and the claims that
waited go on waiting (R139). -/
theorem exec_purgeEnd_next (hp : s.hw.htu.purge = some g) (hr : g.rebuild = true) {p : StationId}
    {rest : List StationId} (hl : g.rest = p :: rest) :
    let raised := raiseEvent (.rebuildEvicted g.station) (purgeEvaluated g s.hw)
    ∃ k, exec .purgeEnd s = .next { s with hw := walked (purgeOf p true true rest raised) k raised }
      ∧ stationWalked raised (walked (purgeOf p true true rest raised) k raised) p (purgeOf p true true rest raised) := by
  intro raised
  obtain ⟨k, he, hk⟩ := startPurge_walked (h := raised) p true true rest
  refine ⟨k, ?_, walked_stationWalked p true true rest hk⟩
  have hidle : takeWaiting s.hw.htu.claims.length (startPurge p true true rest raised) =
      startPurge p true true rest raised := takeWaiting_idle _ (.inl (by simp [startPurge_engaged])) _
  rw [exec_purgeEnd hp, endPurge_closed, ← purgeEvaluated, continueRebuild_next hr hl, hidle, he]

/-- Settles O44: the EVICT alone; the claims taken; and the evaluations, the rebuild's end, or its next purge. -/
theorem purgeEndQueuesEvict : Obligations.PurgeEndQueuesEvict := by
  unfold Obligations.PurgeEndQueuesEvict
  refine ⟨?evict, ?general⟩
  case evict =>
    intro s g hp hr hc hb hw hs listed
    have hexec := exec_purgeEnd_idle hp hc
    rw [endPurge_quiet hr hb hw hs] at hexec
    refine ⟨_, hexec, rfl, fun he hn hl => ?_, fun hn => ?_, ?_⟩
    · rw [evictQueued, if_pos ⟨he, hn, hl⟩]
      rfl
    · rw [evictQueued, if_neg hn]
      rfl
    · unfold evictQueued
      dsimp only
      split <;> exact ⟨rfl, rfl, rfl, rfl, rfl⟩
  case general =>
    intro s g hp closed events queue visited
    have hevents : (purgeEvaluated g s.hw).cqu.events = s.hw.cqu.events := (purgeEvaluated_beside g s.hw).2.2.2
    refine ⟨purgeEnd_takesWaiting hp, fun hg hc => ?last, fun hr p rest hl => ?next⟩
    case last =>
      refine ⟨_, exec_purgeEnd_idle hp hc, ?mbu, ?port, fun hs => ?serving, fun hs hr => ?closed, fun hs hr => ?rebuilt⟩
      case serving =>
        obtain ⟨hpu, he, hmade, hdue, hscu, new, htaken⟩ := purgeEnd_serving (g := g) (v := purgeEvaluated g s.hw)
          (t := endPurge g s.hw) hs rfl (endPurge_serving_rest hs hg)
        rw [endPurge_serving hs hg] at hpu he hmade hdue hscu ⊢
        refine ⟨hpu, he, hmade, hdue, hscu, ?_, _, new, htaken, ?_, fun hr => ?_, fun hr => ?_⟩
        · show _ = purgeEvents g s.hw.cqu.events
          split
          · next hr => rw [raiseEvent_events, hevents, purgeEvents_raise hr]
          · next hr => rw [hevents, purgeEvents, if_neg hr]
        · rw [← endPurge_serving hs hg]
          exact endPurge_serving_rest hs hg
        · rw [if_neg (by simp [hr])]
        · rw [if_pos hr, raiseEvent_queue, hevents]
      case closed =>
        rw [endPurge_of_not_serving g s.hw hs, continueRebuild_not hr]
      case rebuilt =>
        obtain ⟨hscu, -, -, hrqt, hcqu, -⟩ := purgeClosed_frame g s.hw
        dsimp only
        rw [endPurge_rebuilt hs hr (hg.resolve_left (by simp [hr]))]
        simp only [raiseEvent_htu, raiseEvent_lbc, raiseEvent_rqt, raiseEvent_scu, raiseEvent_events]
        refine ⟨rfl, rfl, hrqt, by rw [hscu], ?_, ?_⟩
        · rw [purgeEvents_raise hr, hcqu]
          rfl
        · rw [raiseEvent_queue, if_neg, raiseEvent_queue, hcqu]
          rw [raiseEvent_events]
          exact raise_ne_empty _ _
      case mbu => exact (endPurge_mbu_port g s.hw).1
      case port => exact (endPurge_mbu_port g s.hw).2
    case next =>
      obtain ⟨k, hexec, hwalk⟩ := exec_purgeEnd_next hp hr hl
      obtain ⟨-, -, ⟨hscu, hmbu, hport⟩, -⟩ := purgeEvaluated_beside g s.hw
      obtain ⟨-, -, -, hrqt, hcqu, hclaims, harriving, htimer, -⟩ := purgeClosed_frame g s.hw
      refine ⟨_, _, hexec, rfl, rfl, rfl, rfl, rfl, rfl, fun e he => ?_, fun w hw => ?_, ?_, ?_, fun hs => ?_⟩
      · exact of_decide_eq_true (List.mem_filter.mp he).2
      · exact of_decide_eq_true (List.mem_filter.mp hw).2
      · show (raiseEvent _ _).cqu.events = purgeEvents g s.hw.cqu.events
        rw [raiseEvent_events, hevents, purgeEvents_raise hr]
      · exact ⟨(raiseEvent_scu _ _).trans hscu, (raiseEvent_mbu _ _).trans hmbu, (raiseEvent_port _ _).trans hport⟩
      · rw [purgeEvaluated_of_not_serving (by simp [hs])] at hwalk ⊢
        rw [raiseEvent_rest] at hwalk ⊢
        refine ⟨hwalk, ?_, rfl, htimer, hrqt, ?_⟩
        · exact congrArg₂ (· ++ ·) hclaims harriving
        · show (raiseEvent _ (purgeClosed g s.hw)).cqu.queue = queue
          rw [raiseEvent_queue, hcqu]

end Sys2Proof.Machine
end
